-- ==== Sys2Proof/Word.lean ====
section
/-! DEFINITION. The words of the block (10_state.md R20, 00_scope.md R10): u8, u16 and u32 patterns.
An s32 register is a `Word` read through `BitVec.toInt`. -/

namespace Sys2Proof

/-- u8: a report byte, a bit mask, a fault code. -/
abbrev Byte := BitVec 8

/-- u16: a byte offset, a zone, the fault info. -/
abbrev Half := BitVec 16

/-- u32 or s32: a command word, a value register, a range endpoint. -/
abbrev Word := BitVec 32

end Sys2Proof
end

