-- ==== Sys2Proof/Config.lean ====
section
/-! DEFINITION. The implementation parameters of 00_scope.md R8. A model takes them as an argument (92_eei_decisions.md,
preface), so they are plain data that a state carries and no transaction changes; every statement over all states is
a statement over all their values. Log entries 3, 4 and 12. The entries of the configuration tables (10_state.md) stand
here, since `REF_LAYOUT` is a configuration. -/

namespace Sys2Proof.Machine

/-- `SPEC[i]`'s value (10_state.md R26). -/
structure ButtonSpec where
  off : Half
  mask : Byte
  deriving DecidableEq, Repr

/-- `ZONES[z]`'s value (R27). -/
structure ConditioningZones where
  dz : Half
  mz : Half
  deriving DecidableEq, Repr

/-- `AXIS[a]`'s value (R29). -/
structure AxisDesc where
  lo : Byte
  hi : Byte
  cond : Bool
  z : BitVec 4
  deriving DecidableEq, Repr

/-- The canonical form of a table: indexes strictly rising. -/
abbrev Rising {α : Type} (t : List (Nat × α)) : Prop := (t.map Prod.fst).Pairwise (· < ·)

end Sys2Proof.Machine

namespace Sys2Proof

open Sys2Proof.Machine

/-- `XLAT_ARITH` (R8, 42_range_mapping.md R162, R164): the arithmetic of range translation. -/
inductive XlatArith where
  | exact
  | binary64
  deriving DecidableEq, Repr

/-- A configuration per 10_state.md: the written entries of `SPEC`, `ZONES` and `AXIS`, each by rising index. -/
structure Layout where
  spec : List (Nat × ButtonSpec)
  zones : List (Nat × ConditioningZones)
  axes : List (Nat × AxisDesc)
  deriving DecidableEq, Repr

/-- `NAXIS`: exactly 4 (R8). -/
def naxis : Nat := 4

/-- The parameters of R8 that a block is built with; `BUS_BINDING` is outside the model by R8 itself. -/
structure Config where
  /-- `REPORT_LEN`, the length in bytes of every report. -/
  reportLen : Nat
  /-- `NSPEC`, the number of ButtonSpec entries. -/
  nspec : Nat
  /-- `NZONES`, the number of ConditioningZones entries. -/
  nzones : Nat
  /-- `NRANGE`, the number of AxisRange registers, `RANGE[0]` among them. -/
  nrange : Nat
  /-- `XLAT_ARITH`. -/
  xlatArith : XlatArith
  /-- `REF_LAYOUT`, the reference device's ButtonSpec table, zones and axis descriptors; `none` while it is OPEN. No
  command reads it: a host writes it into the tables (`referenceBoot`, 70_reset_and_hazards.md R272). -/
  refLayout : Option Layout
  deriving DecidableEq, Repr

/-- A layout is a configuration per 10_state.md (R26, R27, R29) in a block of these sizes: every index exists, and is
written once. -/
abbrev Layout.Legal (c : Config) (l : Layout) : Prop :=
  (Rising l.spec ∧ ∀ e ∈ l.spec, e.1 < c.nspec) ∧ (Rising l.zones ∧ ∀ e ∈ l.zones, e.1 < c.nzones) ∧
    (Rising l.axes ∧ ∀ e ∈ l.axes, e.1 < naxis)

/-- What 43_joystick.md R181 fixes of the reference device: LX and LY are conditioned and RX and RY are not, and each
axis's high byte is the whole byte next above its low byte, which is whole too. -/
abbrev Layout.IsReference (l : Layout) : Prop :=
  ∀ a < naxis, ∃ d ∈ l.axes, d.1 = a ∧ d.2.cond = decide (a < 2) ∧
    ∃ lo ∈ l.spec, ∃ hi ∈ l.spec, lo.1 = d.2.lo.toNat ∧ hi.1 = d.2.hi.toNat ∧ lo.2.mask = 0xFF ∧ hi.2.mask = 0xFF ∧
      hi.2.off.toNat = lo.2.off.toNat + 1

/-- The legal values of R8; for `REF_LAYOUT`, any configuration per 10_state.md. -/
abbrev Config.Legal (c : Config) : Prop :=
  (1 ≤ c.reportLen ∧ c.reportLen ≤ 65536) ∧ (1 ≤ c.nspec ∧ c.nspec ≤ 256) ∧
    (1 ≤ c.nzones ∧ c.nzones ≤ 16) ∧ (2 ≤ c.nrange ∧ c.nrange ≤ 16) ∧ ∀ l ∈ c.refLayout.toList, l.Legal c

/-- The defaults of R8. DESIGN CHOICE (log entry 4, unsafe for a claim that rests on it): `REPORT_LEN` is OPEN in the
spec, and 8 is the length that the spec's own programs P1 to P3 use. `REF_LAYOUT` is OPEN too and stays open: no value
(log entry 12). -/
def Config.standard : Config :=
  { reportLen := 8, nspec := 256, nzones := 4, nrange := 16, xlatArith := .exact, refLayout := none }

end Sys2Proof
end

