-- ==== Sys2Proof/Syntax.lean ====
section
/-! DEFINITION. The commands of 30_encoding.md (one constructor per row of opcode_table.json) and the host
transactions of 44_host_interface.md R200. -/

namespace Sys2Proof

/-- The field `src` of R71 and R76: which value register an operand comes from. -/
inductive Src where
  | res
  | arg
  deriving DecidableEq, Repr

/-- A command. Index operands are unsigned numbers (R76); `Instr.wellFormed` bounds them by their fields (R81). -/
inductive Instr where
  /-- `GETB s` (40_report_decode.md R102). -/
  | getb (spec : Nat)
  /-- `GETU8 s` (40_report_decode.md R103). -/
  | getu8 (spec : Nat)
  /-- `GETS16 lo, hi` (40_report_decode.md R104). -/
  | gets16 (lo hi : Nat)
  /-- `DZF src, z` (41_axis_conditioning.md R136). -/
  | dzf (src : Src) (z : Nat)
  /-- `SATC src, z, rs` (41_axis_conditioning.md R137). -/
  | satc (src : Src) (z rs : Nat)
  /-- `COND src, z, rs` (41_axis_conditioning.md R138). -/
  | cond (src : Src) (z rs : Nat)
  /-- `XLAT src, rs, rt` (42_range_mapping.md R163). -/
  | xlat (src : Src) (rs rt : Nat)
  /-- `AXIS a, rt` (43_joystick.md R180). -/
  | axis (a rt : Nat)
  deriving DecidableEq, Repr

/-- A host transaction with its arguments, in the widths of R200. -/
inductive Txn where
  | writeSpec (i : Byte) (off : Half) (mask : Byte)
  | writeZones (z : BitVec 4) (dz mz : Half)
  | writeAxis (a : BitVec 4) (lo hi : Byte) (cond : Bool) (z : BitVec 4)
  | writeRange (r : BitVec 4) (min max : Word)
  | lock
  | reset
  | writeArg (v : Word)
  | loadReport (bytes : List Byte)
  | issue (cmd : Word)
  | readResult
  | readStatus
  deriving DecidableEq, Repr

end Sys2Proof
end

