-- ==== Sys2Proof/WellFormed.lean ====
section
/-! DEFINITION. Which commands have an encoding, and which transactions have arguments of the type R200 gives them. -/

namespace Sys2Proof

/-- Every operand is within its field's range (30_encoding.md R71, R81: an operand out of its field's range is an
assembly error). -/
def Instr.wellFormed : Instr → Bool
  | .getb s => s < 256
  | .getu8 s => s < 256
  | .gets16 lo hi => lo < 256 && hi < 256
  | .dzf _ z => z < 16
  | .satc _ z rs => z < 16 && rs < 16
  | .cond _ z rs => z < 16 && rs < 16
  | .xlat _ rs rt => rs < 16 && rt < 16
  | .axis a rt => a < 16 && rt < 16

/-- `LOAD_REPORT`'s argument has exactly `REPORT_LEN` bytes by its type (44_host_interface.md R208); the other
transactions' arguments are bounded by their Lean types. -/
def Txn.wellTyped (c : Config) : Txn → Bool
  | .loadReport bytes => bytes.length == c.reportLen
  | .writeSpec _ _ _ => true
  | .writeZones _ _ _ => true
  | .writeAxis _ _ _ _ _ => true
  | .writeRange _ _ _ => true
  | .lock => true
  | .reset => true
  | .writeArg _ => true
  | .issue _ => true
  | .readResult => true
  | .readStatus => true

end Sys2Proof
end

