-- ==== Sys2Proof/Decode.lean ====
section
/-! DEFINITION. Decoding a command word by the opcode map of 30_encoding.md R78, and encoding a command by the
formats R72 to R75. -/

namespace Sys2Proof

/-- `w[hi:lo]`, read as an unsigned number (00_scope.md R9). -/
def field (w : Word) (hi lo : Nat) : Nat := w.toNat / 2 ^ lo % 2 ^ (hi + 1 - lo)

/-- A row of the opcode map R78. -/
structure OpRow where
  mnemonic : String
  pat : Word
  mask : Word
  deriving DecidableEq, Repr

def rowGETB : OpRow := ⟨"GETB", 0x10000000#32, 0xFFFFFF00#32⟩
def rowGETU8 : OpRow := ⟨"GETU8", 0x20000000#32, 0xFFFFFF00#32⟩
def rowGETS16 : OpRow := ⟨"GETS16", 0x30000000#32, 0xFFFF0000#32⟩
def rowDZF : OpRow := ⟨"DZF", 0x40000000#32, 0xF7FFFFF0#32⟩
def rowSATC : OpRow := ⟨"SATC", 0x50000000#32, 0xF7FFF0F0#32⟩
def rowCOND : OpRow := ⟨"COND", 0x60000000#32, 0xF7FFF0F0#32⟩
def rowXLAT : OpRow := ⟨"XLAT", 0x70000000#32, 0xF7FF00FF#32⟩
def rowAXIS : OpRow := ⟨"AXIS", 0x80000000#32, 0xFFFF0FF0#32⟩

/-- The opcode map R78. -/
def opRows : List OpRow :=
  [rowGETB, rowGETU8, rowGETS16, rowDZF, rowSATC, rowCOND, rowXLAT, rowAXIS]

/-- `(word & mask) = match`, the row's test of R78. -/
def rowHits (r : OpRow) (w : Word) : Bool := (w &&& r.mask) == r.pat

/-- Why a word matches no row (R79); either way it raises `ILLEGAL_CMD(0)`. -/
inductive Reject where
  /-- Opcode 0x0 or 0x9..0xF. -/
  | illegalOpcode
  /-- A legal opcode with a reserved bit set. -/
  | reservedBit
  deriving DecidableEq, Repr

/-- Bit 27: 0 is `RES`, 1 is `ARG` (R71, R76). -/
def srcOf (w : Word) : Src := if field w 27 27 = 0 then .res else .arg

/-- R78 and R79: total on all words; the operand fields are those of R71. -/
def decode (w : Word) : Except Reject Instr :=
  if rowHits rowGETB w then .ok (.getb (field w 7 0))
  else if rowHits rowGETU8 w then .ok (.getu8 (field w 7 0))
  else if rowHits rowGETS16 w then .ok (.gets16 (field w 7 0) (field w 15 8))
  else if rowHits rowDZF w then .ok (.dzf (srcOf w) (field w 3 0))
  else if rowHits rowSATC w then .ok (.satc (srcOf w) (field w 3 0) (field w 11 8))
  else if rowHits rowCOND w then .ok (.cond (srcOf w) (field w 3 0) (field w 11 8))
  else if rowHits rowXLAT w then .ok (.xlat (srcOf w) (field w 11 8) (field w 15 12))
  else if rowHits rowAXIS w then .ok (.axis (field w 3 0) (field w 15 12))
  else if field w 31 28 = 0 ∨ 9 ≤ field w 31 28 then .error .illegalOpcode
  else .error .reservedBit

/-- The host's question: the command in the low `nbits` bits of `w`. -/
def decodeTableWord (nbits w : Nat) : Option Instr :=
  match decode (BitVec.ofNat 32 (w % 2 ^ nbits)) with
  | .ok i => some i
  | .error _ => none

/-- `src` as the bit it assembles to (R81). -/
def srcBit : Src → Nat
  | .res => 0
  | .arg => 1

/-- Format S1 (R72). -/
def wordS1 (op s : Nat) : Word := BitVec.ofNat 32 (op * 2 ^ 28 + s)

/-- Format S2 (R73). -/
def wordS2 (op hi lo : Nat) : Word := BitVec.ofNat 32 (op * 2 ^ 28 + hi * 2 ^ 8 + lo)

/-- Format V (R74). -/
def wordV (op : Nat) (src : Src) (rt rs z : Nat) : Word :=
  BitVec.ofNat 32 (op * 2 ^ 28 + srcBit src * 2 ^ 27 + rt * 2 ^ 12 + rs * 2 ^ 8 + z)

/-- Format A (R75). -/
def wordA (op rt a : Nat) : Word := BitVec.ofNat 32 (op * 2 ^ 28 + rt * 2 ^ 12 + a)

/-- The word of a well-formed command; a field its format reserves for it is 0 (R72 to R75). -/
def encode : Instr → Word
  | .getb s => wordS1 0x1 s
  | .getu8 s => wordS1 0x2 s
  | .gets16 lo hi => wordS2 0x3 hi lo
  | .dzf src z => wordV 0x4 src 0 0 z
  | .satc src z rs => wordV 0x5 src 0 rs z
  | .cond src z rs => wordV 0x6 src 0 rs z
  | .xlat src rs rt => wordV 0x7 src rt rs 0
  | .axis a rt => wordA 0x8 rt a

end Sys2Proof
end

