-- ==== Sys2Proof/Machine/State.lean ====
section
/-! DEFINITION. The state of the block (10_state.md) as plain data, the reasons a step can stop, and the state after
reset (R35). -/

namespace Sys2Proof.Machine

/-- `RANGE[r]`'s value (R28); both endpoints are s32. -/
structure AxisRange where
  min : Word
  max : Word
  deriving DecidableEq, Repr

/-- The faults of 60_exceptions.md R230, by name; code 0, NONE, is no fault and nothing raises it. -/
inductive FaultCode where
  | illegalCmd
  | specIndex
  | rangeIndex
  | zonesIndex
  | axisIndex
  | noReport
  | noValue
  | zeroMask
  | offsetRange
  | specOverlap
  | badRange
  | badZones
  | operandRange
  | xlatOverflow
  | cfgLocked
  deriving DecidableEq, Repr

/-- The tuple `READ_STATUS` returns (44_host_interface.md R211), in its order. -/
structure Status where
  fault : Bool
  faultCode : Byte
  faultInfo : Half
  faultSrc : Bool
  faultCmd : Word
  cfgLocked : Bool
  rptV : Bool
  argV : Bool
  resV : Bool
  deriving DecidableEq, Repr

/-- What a read transaction returns to the host. -/
inductive Reply where
  /-- `READ_RESULT` (R210): `some v` is `(RES_V = 1, v)`; `none` is `RES_V = 0` and no number. -/
  | result (v : Option Word)
  /-- `READ_STATUS` (R211). -/
  | status (t : Status)
  deriving DecidableEq, Repr

/-- The whole machine. A register or entry with a valid bit is an Option: `none` is valid bit 0, where R22 says it holds
no value and R35 forbids giving it a number; in a table, an index that is not listed has valid bit 0 (log entry 2). -/
structure State where
  /-- The parameters of 00_scope.md R8; no transaction changes them (log entry 3). -/
  cfg : Config
  /-- `SPEC`: the entries with `V = 1`, by rising index (R26). -/
  spec : List (Nat × ButtonSpec)
  /-- `ZONES`: the entries with `V = 1`, by rising index (R27). -/
  zones : List (Nat × ConditioningZones)
  /-- `RANGE[1..]`: the entries with `V = 1`, by rising index; `RANGE[0]` is hardwired in `rangeEntry` (R28). -/
  ranges : List (Nat × AxisRange)
  /-- `AXIS`: the descriptors with `V = 1`, by rising index (R29). -/
  axes : List (Nat × AxisDesc)
  /-- `RPT`, the report space: the bytes that hold a value, by rising offset (R30, 20_memory.md R50). -/
  rpt : List Host.Cell
  /-- `RPT_V` (R30). -/
  rptV : Bool
  /-- `RES` and `RES_V` (R23). -/
  res : Option Word
  /-- `ARG` and `ARG_V` (R25). -/
  arg : Option Word
  /-- `CFG_LOCKED` (R31). -/
  cfgLocked : Bool
  /-- `FAULT` (R32). -/
  fault : Bool
  /-- `FAULT_CODE` (R32). -/
  faultCode : Byte
  /-- `FAULT_INFO` (R32). -/
  faultInfo : Half
  /-- `FAULT_SRC` (R32): false is 0, a command; true is 1, a host transaction. -/
  faultSrc : Bool
  /-- `FAULT_CMD` (R32). -/
  faultCmd : Word
  /-- The model's own: the host transactions to come, first first (00_scope.md R7; log entry 1). -/
  script : List Txn
  /-- The model's own: what the read transactions have returned to the host, oldest first (log entry 1). -/
  replies : List Reply
  deriving DecidableEq, Repr

/-- Why the model stops. A fault the SPEC describes is no member: it is a next state with the fault record written. -/
inductive Fault where
  /-- Raised by `memRead` for an offset at which no byte of a report stands. Safe: 20_memory.md R51 says `MemRead` is never
  evaluated so, and only states that no run reaches come here (log entry 5). -/
  | reportByteAbsent (off : Nat)
  /-- Raised by `perform` for a `LOAD_REPORT` whose list is not `REPORT_LEN` long. Safe: R208's argument has that length by
  its type, so no such transaction exists (log entry 6). -/
  | reportLength (given : Nat)
  deriving DecidableEq, Repr

/-- Why an instruction has no meaning. -/
inductive Refusal where
  /-- Raised by an arm of `exec` for an instruction without a meaning. Safe. No arm does: all eight have theirs. -/
  | notModelled (mnemonic : String)
  deriving DecidableEq, Repr

/-- The state after power-on or `RESET` of a block built with the parameters `p` (R35, 70_reset_and_hazards.md R270). -/
def State.resetWith (p : Config) : State :=
  { cfg := p
    spec := []
    zones := []
    ranges := []
    axes := []
    rpt := []
    rptV := false
    res := none
    arg := none
    cfgLocked := false
    fault := false
    faultCode := 0
    faultInfo := 0
    faultSrc := false
    faultCmd := 0
    script := []
    replies := [] }

/-- The machine right after reset, with the parameters of `Config.standard` (log entry 4). -/
def State.reset : State := State.resetWith Config.standard

end Sys2Proof.Machine
end

