-- ==== Sys2Proof/Machine/Table.lean ====
section
/-! DEFINITION. Tables and memory as lists of (index, value) pairs in one canonical form: indexes strictly rising. The
configuration tables (10_state.md R26 to R29) and the report space (20_memory.md R50) share these operations. -/

namespace Sys2Proof.Machine

/-- The value at index `i`; `none` where nothing is listed. -/
def tableGet {α : Type} : List (Nat × α) → Nat → Option α
  | [], _ => none
  | (k, v) :: t, i => if i = k then some v else tableGet t i

/-- Write `a` at index `i`, keeping the form. -/
def tablePut {α : Type} : List (Nat × α) → Nat → α → List (Nat × α)
  | [], i, a => [(i, a)]
  | (k, v) :: t, i, a =>
    if i < k then (i, a) :: (k, v) :: t
    else if i = k then (i, a) :: t
    else (k, v) :: tablePut t i a

/-- What an offset that is not listed reads as: no value (R35: every `RPT[k]` holds no value after reset; log entry 5). -/
def unlistedByte : Option Byte := none

/-- The byte at offset `off` of the report space. -/
def reportByte (m : List Host.Cell) (off : Nat) : Option Byte :=
  match tableGet m off with
  | some b => some b
  | none => unlistedByte

/-- The cells of the bytes `bs` from offset `k` up. -/
def cellsFrom (k : Nat) : List Byte → List Host.Cell
  | [] => []
  | b :: bs => (k, b) :: cellsFrom (k + 1) bs

/-- The canonical form of the report space; no value is the unlisted reading, so no listed byte equals it. -/
abbrev Memory.wf (m : List Host.Cell) : Prop := Rising m

end Sys2Proof.Machine
end

