-- ==== Sys2Proof/Machine/Ops.lean ====
section
/-! DEFINITION. The named operations over the state: its setters, reading the report and the tables, raising a fault
(the one shared fault entry, 60_exceptions.md R231), RESET (the only way out of it, R235), and ending a command. -/

namespace Sys2Proof.Machine

/-! The setters: one per group of fields that some transaction writes. -/

def setSpec (s : State) (t : List (Nat × ButtonSpec)) : State := { s with spec := t }
def setZones (s : State) (t : List (Nat × ConditioningZones)) : State := { s with zones := t }
def setRanges (s : State) (t : List (Nat × AxisRange)) : State := { s with ranges := t }
def setAxes (s : State) (t : List (Nat × AxisDesc)) : State := { s with axes := t }
def setReport (s : State) (m : List Host.Cell) : State := { s with rpt := m, rptV := true }
def setRes (s : State) (v : Word) : State := { s with res := some v }
def setArg (s : State) (v : Word) : State := { s with arg := some v }
def setLocked (s : State) : State := { s with cfgLocked := true }
def setScript (s : State) (ts : List Txn) : State := { s with script := ts }
def pushReply (s : State) (r : Reply) : State := { s with replies := s.replies ++ [r] }

/-- Write the fault record (10_state.md R32) and set `FAULT`. -/
def setRecord (s : State) (code : Byte) (info : Half) (src : Bool) (cmd : Word) : State :=
  { s with fault := true, faultCode := code, faultInfo := info, faultSrc := src, faultCmd := cmd }

/-! Reading the tables and the report. -/

/-- `SPEC[i]` if `i < NSPEC` and `SPEC[i].V = 1` (40_report_decode.md R100). -/
def specEntry (s : State) (i : Nat) : Option ButtonSpec :=
  if i < s.cfg.nspec then tableGet s.spec i else none

/-- `ZONES[z]` if `z < NZONES` and `ZONES[z].V = 1` (41_axis_conditioning.md R131). -/
def zonesEntry (s : State) (z : Nat) : Option ConditioningZones :=
  if z < s.cfg.nzones then tableGet s.zones z else none

/-- `RANGE[0]`: the native range (10_state.md R28). -/
def nativeRange : AxisRange := ⟨BitVec.ofInt 32 (-32768), BitVec.ofInt 32 32767⟩

/-- `RANGE[r]` if `r < NRANGE` and `RANGE[r].V = 1` (42_range_mapping.md R160); `RANGE[0]` is hardwired (10_state.md R28). -/
def rangeEntry (s : State) (r : Nat) : Option AxisRange :=
  if r < s.cfg.nrange then (if r = 0 then some nativeRange else tableGet s.ranges r) else none

/-- `AXIS[a]` if `a < 4` and `AXIS[a].V = 1` (43_joystick.md R180). -/
def axisEntry (s : State) (a : Nat) : Option AxisDesc :=
  if a < naxis then tableGet s.axes a else none

/-! Faults. -/

/-- `FAULT_CODE`'s number of a fault (60_exceptions.md R230). -/
def codeOf : FaultCode → Byte
  | .illegalCmd => 1
  | .specIndex => 2
  | .rangeIndex => 3
  | .zonesIndex => 4
  | .axisIndex => 5
  | .noReport => 6
  | .noValue => 7
  | .zeroMask => 8
  | .offsetRange => 9
  | .specOverlap => 10
  | .badRange => 11
  | .badZones => 12
  | .operandRange => 13
  | .xlatOverflow => 14
  | .cfgLocked => 15

/-- `raise E(info)` (60_exceptions.md R231): the first fault since reset writes the record, and nothing else changes.
`src` is true in a host transaction, where `cmd` is 0. -/
def raise (s : State) (e : FaultCode) (info : Nat) (src : Bool) (cmd : Word) : State :=
  if s.fault then s else setRecord s (codeOf e) (BitVec.ofNat 16 info) src cmd

/-- `RESET` (44_host_interface.md R206): every piece of the block's state to its reset value. The parameters are
fixed, and the host keeps its script and the replies it has had. -/
def resetBlock (s : State) : State :=
  { State.resetWith s.cfg with script := s.script, replies := s.replies }

/-! A command is a row of checks and then a value for `RES` (00_scope.md R13): `Except Stop Word`. -/

/-- Why a command's evaluation ends without a value. -/
inductive Stop where
  /-- `raise E(info)` (00_scope.md R12). -/
  | raises (e : FaultCode) (info : Nat)
  /-- `MemRead` where no byte of a report stands (20_memory.md R51; log entry 5). -/
  | absent (off : Nat)
  deriving DecidableEq, Repr

/-- `if not c: raise E(info)` (00_scope.md R12). -/
def require (c : Bool) (e : FaultCode) (info : Nat) : Except Stop Unit :=
  if c then .ok () else .error (.raises e info)

/-- The entry an index names, or the index fault (30_encoding.md R77). -/
def requireEntry {α : Type} (x : Option α) (e : FaultCode) (info : Nat) : Except Stop α :=
  match x with
  | some a => .ok a
  | none => .error (.raises e info)

/-- `MemRead(off, 1)` (20_memory.md R51). -/
def memRead (s : State) (off : Nat) : Except Stop Byte :=
  match reportByte s.rpt off with
  | some b => .ok b
  | none => .error (.absent off)

/-- The end of a command (10_state.md R23, 60_exceptions.md R231): its value goes to `RES`, or its first failing check
is raised with `FAULT_SRC = 0` and the command's word. -/
def finish (cmd : Word) (s : State) : Except Stop Word → Host.Outcome State Fault Refusal
  | .ok v => .next (setRes s v)
  | .error (.raises e info) => .next (raise s e info false cmd)
  | .error (.absent off) => .fault (.reportByteAbsent off)

end Sys2Proof.Machine
end

