-- ==== Sys2Proof/Machine/Arith.lean ====
section
/-! DEFINITION. The arithmetic of the commands over mathematical integers (00_scope.md R10, R11): the signed short, the
three conditioning functions, and the linear map in both arithmetics of `XLAT_ARITH`. -/

namespace Sys2Proof.Machine

/-- `s16(w)` (00_scope.md R10). -/
def s16 (w : Half) : Int := if w.toNat < 0x8000 then (w.toNat : Int) else (w.toNat : Int) - 65536

/-- `w = (h << 8) | l`, then `s16(w)` (40_report_decode.md R105). -/
def signedShort (h l : Byte) : Int := s16 ((h.zeroExtend 16 <<< 8) ||| l.zeroExtend 16)

/-- An integer as an s32 register holds it. -/
def toWord (v : Int) : Word := BitVec.ofInt 32 v

/-- `fits_s32(v)` (00_scope.md R10). -/
def fitsS32 (v : Int) : Bool := -(2 ^ 31) ≤ v && v ≤ 2 ^ 31 - 1

/-- `DeadZone(v, dz)` (41_axis_conditioning.md R133). -/
def deadZone (v : Int) (dz : Nat) : Int := if v.natAbs < dz then 0 else v

/-- `Saturate(v, mz, M)` (R134). -/
def saturate (v : Int) (mz : Nat) (m : Int) : Int :=
  if mz < v.natAbs then (if 0 ≤ v then m else -m) else v

/-- `Condition(v, dz, mz, M)` (R135): the dead-zone test first. -/
def condition (v : Int) (dz mz : Nat) (m : Int) : Int :=
  if v.natAbs < dz then 0
  else if mz < v.natAbs then (if 0 ≤ v then m else -m)
  else v

/-- `XlatInt` with `XLAT_ARITH = EXACT` (42_range_mapping.md R162); `Int.tdiv` is `tdiv` of 00_scope.md R11. -/
def xlatExact (v : Int) (src dst : AxisRange) : Int :=
  let d := src.max.toInt - src.min.toInt
  let n := dst.min.toInt * d + (v - src.min.toInt) * (dst.max.toInt - dst.min.toInt)
  n.tdiv d

/-- The natural number nearest `n / d`, ties to even. -/
def roundEven (n d : Nat) : Nat :=
  let q := n / d
  let r := n % d
  if 2 * r < d then q else if d < 2 * r then q + 1 else if q % 2 = 0 then q else q + 1

/-- `floor(log2(n / d))`, for `n` and `d` above 0. -/
def floorLog2 (n d : Nat) : Int :=
  let k : Int := (Nat.log2 n : Int) - (Nat.log2 d : Int)
  if d * 2 ^ k.toNat ≤ n * 2 ^ (-k).toNat then k else k - 1

/-- `RN64(n / d)` (42_range_mapping.md R164): the binary64 value nearest `n / d`, ties to even, as a fraction. The
exponents that R164's steps reach lie far inside binary64's normal range (log entry 7), so only the 53-bit significand
rounds. -/
def rn64 (n : Int) (d : Nat) : Int × Nat :=
  if n = 0 then (0, 1)
  else
    let t := 52 - floorLog2 n.natAbs d
    let up := 2 ^ t.toNat
    let down := 2 ^ (-t).toNat
    (n.sign * (roundEven (n.natAbs * up) (d * down) * down : Nat), up)

/-- The formula of 42_range_mapping.md R164, `XLAT_ARITH = BINARY64`: `q`, `p` and `y`, each rounded once. -/
def xlatBinary64 (v : Int) (src dst : AxisRange) : Int :=
  let q := rn64 (v - src.min.toInt) (src.max.toInt - src.min.toInt).toNat
  let p := rn64 (q.1 * (dst.max.toInt - dst.min.toInt)) q.2
  let y := rn64 (dst.min.toInt * p.2 + p.1) p.2
  y.1.tdiv y.2

/-- `XlatInt(v, S, T)` (42_range_mapping.md R162, R164). From a range to itself it is `v` exactly in either arithmetic (R163's
corner case, R165 item 6, 70_reset_and_hazards.md R271); R162's formula gives that itself, R164's only nearly (DEDUCED, log
entry 8). -/
def xlatInt (arith : XlatArith) (v : Int) (src dst : AxisRange) : Int :=
  match arith with
  | .exact => xlatExact v src dst
  | .binary64 => if src = dst then v else xlatBinary64 v src dst

end Sys2Proof.Machine
end

