-- ==== Sys2Proof/Machine/Operands.lean ====
section
/-! DEFINITION. The operand forms and the shared checks of the commands, each under the name the spec gives it. A check
of an index also yields the entry it has found valid. -/

namespace Sys2Proof.Machine

/-- `Operand(src)` (41_axis_conditioning.md R130): the s32 value of `RES` or `ARG`. -/
def operand (s : State) (src : Src) : Except Stop Int :=
  match src with
  | .res => do return (← requireEntry s.res .noValue 0).toInt
  | .arg => do return (← requireEntry s.arg .noValue 1).toInt

/-- `CheckSpecIndex(i)` (40_report_decode.md R100). -/
def checkSpecIndex (s : State) (i : Nat) : Except Stop ButtonSpec :=
  requireEntry (specEntry s i) .specIndex i

/-- `CheckReport()` (R100). -/
def checkReport (s : State) : Except Stop Unit := require s.rptV .noReport 0

/-- `CheckSpecLayout(i)` (R101), for the entry `e` at index `i`. -/
def checkSpecLayout (s : State) (i : Nat) (e : ButtonSpec) : Except Stop Unit := do
  require (e.mask != 0) .zeroMask i
  require (e.off.toNat < s.cfg.reportLen) .offsetRange i

/-- The offsets of a signed short's two specs are distinct (R104). -/
def checkDistinct (lo : Nat) (l h : ButtonSpec) : Except Stop Unit :=
  require (l.off != h.off) .specOverlap lo

/-- `SShort(lo, hi)` (R105), for the entries `l` and `h`. -/
def sShort (s : State) (l h : ButtonSpec) : Except Stop Int := do
  let bh ← memRead s h.off.toNat
  let bl ← memRead s l.off.toNat
  return signedShort (bh &&& h.mask) (bl &&& l.mask)

/-- `CheckZonesIndex(z)` (41_axis_conditioning.md R131). -/
def checkZonesIndex (s : State) (z : Nat) : Except Stop ConditioningZones :=
  requireEntry (zonesEntry s z) .zonesIndex z

/-- `CheckZonesPair(z)` (R131), for the entry `c` at index `z`. -/
def checkZonesPair (z : Nat) (c : ConditioningZones) : Except Stop Unit :=
  require (c.dz.toNat < c.mz.toNat) .badZones z

/-- `CheckZonesFit(z, r)` (R131), for the entry `c` at index `z` and the range `r`. -/
def checkZonesFit (z : Nat) (c : ConditioningZones) (r : AxisRange) : Except Stop Unit :=
  require (c.mz.toNat < max r.min.toInt.natAbs r.max.toInt.natAbs) .badZones z

/-- `CheckS16(v, src)` (R132). -/
def checkS16 (v : Int) (src : Src) : Except Stop Unit :=
  require (-32768 ≤ v && v ≤ 32767) .operandRange (srcBit src)

/-- `CheckRangeIndex(r)` (42_range_mapping.md R160). -/
def checkRangeIndex (s : State) (r : Nat) : Except Stop AxisRange :=
  requireEntry (rangeEntry s r) .rangeIndex r

/-- `CheckRange(r)` (R160), for the range `x` at index `r`. -/
def checkRange (r : Nat) (x : AxisRange) : Except Stop Unit :=
  require (x.min.toInt < x.max.toInt) .badRange r

end Sys2Proof.Machine
end

