-- ==== Sys2Proof/Machine/AxisConditioning.lean ====
section
/-! DEFINITION. DZF, SATC and COND (41_axis_conditioning.md). -/

namespace Sys2Proof.Machine

/-- DZF (R136). It uses no range, so the fit of its zones is not checked. -/
def execDzf (src : Src) (z : Nat) (s : State) : Host.Outcome State Fault Refusal :=
  finish (encode (.dzf src z)) s do
    let c ← checkZonesIndex s z
    let v ← operand s src
    checkZonesPair z c
    checkS16 v src
    return toWord (deadZone v c.dz.toNat)

/-- The checks that SATC and COND share, in their order (R137, R138), and what they have found. -/
def conditioned (s : State) (src : Src) (z rs : Nat) : Except Stop (Int × ConditioningZones × AxisRange) := do
  let c ← checkZonesIndex s z
  let r ← checkRangeIndex s rs
  let v ← operand s src
  checkRange rs r
  checkZonesPair z c
  checkZonesFit z c r
  checkS16 v src
  return (v, c, r)

/-- SATC (R137). -/
def execSatc (src : Src) (z rs : Nat) (s : State) : Host.Outcome State Fault Refusal :=
  finish (encode (.satc src z rs)) s do
    let (v, c, r) ← conditioned s src z rs
    return toWord (saturate v c.mz.toNat r.max.toInt)

/-- COND (R138). -/
def execCond (src : Src) (z rs : Nat) (s : State) : Host.Outcome State Fault Refusal :=
  finish (encode (.cond src z rs)) s do
    let (v, c, r) ← conditioned s src z rs
    return toWord (condition v c.dz.toNat c.mz.toNat r.max.toInt)

end Sys2Proof.Machine
end

