-- ==== Sys2Proof/Machine/Joystick.lean ====
section
/-! DEFINITION. AXIS (43_joystick.md). -/

namespace Sys2Proof.Machine

/-- `CheckZonesIndex(z)` if the descriptor conditions (R180): `none` for an axis that does not. -/
def axisZones (s : State) (d : AxisDesc) : Except Stop (Option ConditioningZones) :=
  if d.cond then do return some (← checkZonesIndex s d.z.toNat) else .ok none

/-- `CheckZonesPair(z)` and `CheckZonesFit(z, 0)` if the descriptor conditions (R180). -/
def checkAxisZones (d : AxisDesc) : Option ConditioningZones → Except Stop Unit
  | some c => do
    checkZonesPair d.z.toNat c
    checkZonesFit d.z.toNat c nativeRange
  | none => .ok ()

/-- The conditioned value, or the raw one (R180). -/
def axisValue (raw : Int) : Option ConditioningZones → Int
  | some c => condition raw c.dz.toNat c.mz.toNat nativeRange.max.toInt
  | none => raw

/-- AXIS (R180): every check, then decode, condition and translate from the native range. -/
def execAxis (a rt : Nat) (s : State) : Host.Outcome State Fault Refusal :=
  finish (encode (.axis a rt)) s do
    let d ← requireEntry (axisEntry s a) .axisIndex a
    let t ← checkRangeIndex s rt
    let lo := d.lo.toNat
    let hi := d.hi.toNat
    let l ← checkSpecIndex s lo
    let h ← checkSpecIndex s hi
    let c ← axisZones s d
    checkReport s
    checkSpecLayout s lo l
    checkSpecLayout s hi h
    checkDistinct lo l h
    checkRange rt t
    checkAxisZones d c
    let raw ← sShort s l h
    return toWord (xlatInt s.cfg.xlatArith (axisValue raw c) nativeRange t)

end Sys2Proof.Machine
end

