-- ==== Sys2Proof/Machine/RangeMapping.lean ====
section
/-! DEFINITION. XLAT (42_range_mapping.md). -/

namespace Sys2Proof.Machine

/-- XLAT (R163), in the arithmetic the parameter `XLAT_ARITH` selects. -/
def execXlat (src : Src) (rs rt : Nat) (s : State) : Host.Outcome State Fault Refusal :=
  finish (encode (.xlat src rs rt)) s do
    let a ← checkRangeIndex s rs
    let b ← checkRangeIndex s rt
    let v ← operand s src
    checkRange rs a
    checkRange rt b
    let y := xlatInt s.cfg.xlatArith v a b
    require (fitsS32 y) .xlatOverflow 0
    return toWord y

end Sys2Proof.Machine
end

