-- ==== Sys2Proof/Machine/ReportDecode.lean ====
section
/-! DEFINITION. GETB, GETU8 and GETS16 (40_report_decode.md). -/

namespace Sys2Proof.Machine

/-- The checks and the masked byte that GETB and GETU8 share (40_report_decode.md R102, R103). -/
def maskedByte (s : State) (i : Nat) : Except Stop Byte := do
  let e ← checkSpecIndex s i
  checkReport s
  checkSpecLayout s i e
  let b ← memRead s e.off.toNat
  return b &&& e.mask

/-- GETB (R102): 1 if a masked bit is set, else 0. -/
def execGetb (i : Nat) (s : State) : Host.Outcome State Fault Refusal :=
  finish (encode (.getb i)) s do
    let m ← maskedByte s i
    return if m != 0 then 1 else 0

/-- GETU8 (R103): the masked byte, not shifted, zero-extended. -/
def execGetu8 (i : Nat) (s : State) : Host.Outcome State Fault Refusal :=
  finish (encode (.getu8 i)) s do
    let m ← maskedByte s i
    return m.zeroExtend 32

/-- GETS16 (R104). -/
def execGets16 (lo hi : Nat) (s : State) : Host.Outcome State Fault Refusal :=
  finish (encode (.gets16 lo hi)) s do
    let l ← checkSpecIndex s lo
    let h ← checkSpecIndex s hi
    checkReport s
    checkSpecLayout s lo l
    checkSpecLayout s hi h
    checkDistinct lo l h
    let v ← sShort s l h
    return toWord v

end Sys2Proof.Machine
end

