-- ==== Sys2Proof/Machine/Dispatch.lean ====
section
/-! DEFINITION. The meaning of every command, one arm per constructor. -/

namespace Sys2Proof.Machine

def exec (i : Instr) (s : State) : Host.Outcome State Fault Refusal :=
  match i with
  | .getb n => Sys2Proof.Machine.execGetb n s
  | .getu8 n => Sys2Proof.Machine.execGetu8 n s
  | .gets16 lo hi => Sys2Proof.Machine.execGets16 lo hi s
  | .dzf src z => Sys2Proof.Machine.execDzf src z s
  | .satc src z rs => Sys2Proof.Machine.execSatc src z rs s
  | .cond src z rs => Sys2Proof.Machine.execCond src z rs s
  | .xlat src rs rt => Sys2Proof.Machine.execXlat src rs rt s
  | .axis a rt => Sys2Proof.Machine.execAxis a rt s

end Sys2Proof.Machine
end

