-- ==== Sys2Proof/Machine/Flags.lean ====
section
/-! DEFINITION. The block has no condition codes and no arithmetic flags, and no command sets one (10_state.md R33). Its
only status bits are the valid bits, `CFG_LOCKED` and the fault record; this file reads them as `READ_STATUS` does. -/

namespace Sys2Proof.Machine

/-- `RES_V` (10_state.md R22). -/
def resV (s : State) : Bool := s.res.isSome

/-- `ARG_V` (10_state.md R22). -/
def argV (s : State) : Bool := s.arg.isSome

/-- The tuple of 44_host_interface.md R211. -/
def statusOf (s : State) : Status :=
  { fault := s.fault
    faultCode := s.faultCode
    faultInfo := s.faultInfo
    faultSrc := s.faultSrc
    faultCmd := s.faultCmd
    cfgLocked := s.cfgLocked
    rptV := s.rptV
    argV := argV s
    resV := resV s }

end Sys2Proof.Machine
end

