-- ==== Sys2Proof/Machine/HostInterface.lean ====
section
/-! DEFINITION. The host transactions (44_host_interface.md) and the step that performs the next one of the script. ISSUE
runs a command through `run`, which `Step.lean` gives as `exec`. -/

namespace Sys2Proof.Machine

/-- `if FAULT == 1: return` before a transaction's body (R212). -/
def unlessFaulted (s : State) (body : State) : State := if s.fault then s else body

/-- `raise E(info)` in a host transaction: `FAULT_SRC = 1`, `FAULT_CMD = 0` (R200, 60_exceptions.md R231). -/
def raiseHost (s : State) (e : FaultCode) (info : Nat) : State := raise s e info true 0

/-- `WRITE_SPEC` (R201). -/
def writeSpec (i : Byte) (off : Half) (mask : Byte) (s : State) : State :=
  unlessFaulted s <|
    if s.cfgLocked then raiseHost s .cfgLocked 0
    else if s.cfg.nspec ≤ i.toNat then raiseHost s .specIndex i.toNat
    else setSpec s (tablePut s.spec i.toNat ⟨off, mask⟩)

/-- `WRITE_ZONES` (R202). -/
def writeZones (z : BitVec 4) (dz mz : Half) (s : State) : State :=
  unlessFaulted s <|
    if s.cfgLocked then raiseHost s .cfgLocked 0
    else if s.cfg.nzones ≤ z.toNat then raiseHost s .zonesIndex z.toNat
    else setZones s (tablePut s.zones z.toNat ⟨dz, mz⟩)

/-- `WRITE_AXIS` (R203). -/
def writeAxis (a : BitVec 4) (lo hi : Byte) (cond : Bool) (z : BitVec 4) (s : State) : State :=
  unlessFaulted s <|
    if s.cfgLocked then raiseHost s .cfgLocked 0
    else if naxis ≤ a.toNat then raiseHost s .axisIndex a.toNat
    else setAxes s (tablePut s.axes a.toNat ⟨lo, hi, cond, z⟩)

/-- `WRITE_RANGE` (R204), locked or not. -/
def writeRange (r : BitVec 4) (min max : Word) (s : State) : State :=
  unlessFaulted s <|
    if r.toNat = 0 ∨ s.cfg.nrange ≤ r.toNat then raiseHost s .rangeIndex r.toNat
    else setRanges s (tablePut s.ranges r.toNat ⟨min, max⟩)

/-- `LOCK` (R205). -/
def lock (s : State) : State := unlessFaulted s (setLocked s)

/-- `WRITE_ARG` (R207). -/
def writeArg (v : Word) (s : State) : State := unlessFaulted s (setArg s v)

/-- `LOAD_REPORT` (R208): the whole report at once. -/
def loadReport (bytes : List Byte) (s : State) : State :=
  unlessFaulted s (setReport s (cellsFrom 0 bytes))

/-- `READ_RESULT` (R210), whether or not `FAULT = 1`. -/
def readResult (s : State) : State := pushReply s (.result s.res)

/-- `READ_STATUS` (R211), whether or not `FAULT = 1`. -/
def readStatus (s : State) : State := pushReply s (.status (statusOf s))

/-- `ISSUE` (R209): decode by 30_encoding.md R78, then run the command's rule. -/
def issue (run : Instr → State → Host.Outcome State Fault Refusal) (cmd : Word) (s : State) :
    Host.Outcome State Fault Refusal :=
  if s.fault then .next s
  else
    match decode cmd with
    | .ok i => run i s
    | .error _ => .next (raise s .illegalCmd 0 false cmd)

/-- One transaction (R200). -/
def perform (run : Instr → State → Host.Outcome State Fault Refusal) (t : Txn) (s : State) :
    Host.Outcome State Fault Refusal :=
  match t with
  | .writeSpec i off mask => .next (writeSpec i off mask s)
  | .writeZones z dz mz => .next (writeZones z dz mz s)
  | .writeAxis a lo hi cond z => .next (writeAxis a lo hi cond z s)
  | .writeRange r min max => .next (writeRange r min max s)
  | .lock => .next (lock s)
  | .reset => .next (resetBlock s)
  | .writeArg v => .next (writeArg v s)
  | .loadReport bytes =>
    if (Txn.loadReport bytes).wellTyped s.cfg then .next (loadReport bytes s)
    else .fault (.reportLength bytes.length)
  | .issue cmd => issue run cmd s
  | .readResult => .next (readResult s)
  | .readStatus => .next (readStatus s)

/-- The next transaction of the host's script, off the script; with none, the block keeps its state (60_exceptions.md
R242). -/
def performNext (run : Instr → State → Host.Outcome State Fault Refusal) (s : State) :
    Host.Outcome State Fault Refusal :=
  match s.script with
  | [] => .next s
  | t :: ts => perform run t (setScript s ts)

/-- The transactions by which a host configures and locks a block: steps 1 to 4 of 70_reset_and_hazards.md R272, in its
order. -/
def bootScript (l : Layout) : List Txn :=
  l.spec.map (fun e => .writeSpec (BitVec.ofNat 8 e.1) e.2.off e.2.mask) ++
    (l.zones.map (fun e => .writeZones (BitVec.ofNat 4 e.1) e.2.dz e.2.mz) ++
      (l.axes.map (fun e => .writeAxis (BitVec.ofNat 4 e.1) e.2.lo e.2.hi e.2.cond e.2.z) ++ [.lock]))

/-- The boot for the reference device (`REF_LAYOUT`, 00_scope.md R8, 43_joystick.md R181); with no transaction while the
parameter is OPEN. -/
def referenceBoot (p : Config) : List Txn :=
  match p.refLayout with
  | some l => bootScript l
  | none => []

/-- The host presents the command word `w` next: an ISSUE before the rest of its script (log entry 1). -/
def presentWord (s : State) (nbits w : Nat) : State :=
  setScript s (.issue (BitVec.ofNat 32 (w % 2 ^ nbits)) :: s.script)

end Sys2Proof.Machine
end

