-- ==== Sys2Proof/Machine/Step.lean ====
section
/-! DEFINITION. One step: the next host transaction (00_scope.md R6, R7). There is no program counter and no fetch
(10_state.md R21); a command reaches the core by ISSUE. -/

namespace Sys2Proof.Machine

def step (s : State) : Host.Outcome State Fault Refusal := performNext exec s

/-- `s` with an ISSUE of the word `w` as the host's next transaction; nothing else changes (log entry 1). -/
def State.withFetchWord (s : State) (nbits w : Nat) : State := presentWord s nbits w

end Sys2Proof.Machine
end

