-- ==== Sys2Proof/Safety.lean ====
section
/-! DEFINITION. What counts as a safe run (60_exceptions.md R232), and the invariant of the state. -/

namespace Sys2Proof.Machine

/-- `k` steps that neither stop the model nor record a fault: a state with `FAULT = 1` is a failed run (R232). -/
def safeRun : Nat → State → Bool
  | 0, s => !s.fault
  | k + 1, s =>
    !s.fault &&
      match step s with
      | .next t => safeRun k t
      | .fault _ => false
      | .refused _ => false

/-- What holds at reset and after every step: legal parameters (00_scope.md R8), every table in its canonical form and
within its bounds (10_state.md R26 to R29), a report that is whole or absent (R30), and a fault record that is clear or
holds a code of 60_exceptions.md R230. -/
structure State.Inv (s : State) : Prop where
  legal : s.cfg.Legal
  specForm : Rising s.spec ∧ ∀ e ∈ s.spec, e.1 < s.cfg.nspec
  zonesForm : Rising s.zones ∧ ∀ e ∈ s.zones, e.1 < s.cfg.nzones
  rangesForm : Rising s.ranges ∧ ∀ e ∈ s.ranges, 1 ≤ e.1 ∧ e.1 < s.cfg.nrange
  axesForm : Rising s.axes ∧ ∀ e ∈ s.axes, e.1 < naxis
  report : s.rpt.map Prod.fst = if s.rptV then List.range s.cfg.reportLen else []
  clear : s.fault = false → s.faultCode = 0 ∧ s.faultInfo = 0 ∧ s.faultSrc = false ∧ s.faultCmd = 0
  code : s.fault = true → 1 ≤ s.faultCode.toNat ∧ s.faultCode.toNat ≤ 15
  source : s.faultSrc = true → s.faultCmd = 0

end Sys2Proof.Machine
end

