-- ==== Sys2Proof/Certificates/Slice0/Obligations.lean ====
section
/-! DEFINITION. The statements for the provers. Each docstring names the rule or section it formalises. -/

namespace Sys2Proof.Claims

open Sys2Proof.Machine

/-- One check of a transaction: whether it fails, the fault code of 60_exceptions.md R230, and `FAULT_INFO`. -/
abbrev Check := Bool × Byte × Nat

/-- The first failing check of a row, in the row's order (60_exceptions.md R233). -/
def firstFailing : List Check → Option (Byte × Nat)
  | [] => none
  | (true, code, info) :: _ => some (code, info)
  | (false, _, _) :: rest => firstFailing rest

/-- A condition on an entry that holds a value. -/
def onEntry {α : Type} (x : Option α) (p : α → Bool) : Bool :=
  match x with
  | some a => p a
  | none => false

/-- The value register that `src` selects (30_encoding.md R76). -/
def valueReg (s : State) : Src → Option Word
  | .res => s.res
  | .arg => s.arg

/-- `ZERO_MASK(i)`, then `OFFSET_RANGE(i)`. -/
def layoutChecks (s : State) (i : Nat) : List Check :=
  [(onEntry (specEntry s i) fun e => e.mask = 0, 8, i),
   (onEntry (specEntry s i) fun e => s.cfg.reportLen ≤ e.off.toNat, 9, i)]

/-- `SPEC_OVERLAP(lo)`. -/
def overlap (s : State) (lo hi : Nat) : Bool :=
  onEntry (specEntry s lo) fun l => onEntry (specEntry s hi) fun h => l.off = h.off

/-- `BAD_RANGE(r)`. -/
def badRange (s : State) (r : Nat) : Bool := onEntry (rangeEntry s r) fun x => x.max.toInt ≤ x.min.toInt

/-- `BAD_ZONES(z)`, the pair. -/
def badPair (s : State) (z : Nat) : Bool := onEntry (zonesEntry s z) fun c => c.mz.toNat ≤ c.dz.toNat

/-- `BAD_ZONES(z)`, the fit in range `r`. -/
def badFit (s : State) (z r : Nat) : Bool :=
  onEntry (zonesEntry s z) fun c =>
    onEntry (rangeEntry s r) fun x => x.min.toInt.natAbs ≤ c.mz.toNat ∧ x.max.toInt.natAbs ≤ c.mz.toNat

/-- `OPERAND_RANGE(src)`. -/
def badOperand (s : State) (src : Src) : Bool :=
  onEntry (valueReg s src) fun v => v.toInt < -32768 ∨ 32767 < v.toInt

/-- `XLAT_OVERFLOW`. -/
def overflows (s : State) (src : Src) (rs rt : Nat) : Bool :=
  onEntry (rangeEntry s rs) fun a => onEntry (rangeEntry s rt) fun b => onEntry (valueReg s src) fun v =>
    xlatInt s.cfg.xlatArith v.toInt a b < -(2 ^ 31) ∨ 2 ^ 31 - 1 < xlatInt s.cfg.xlatArith v.toInt a b

/-- The check order of each command (60_exceptions.md R233), decoding apart. -/
def commandChecks (s : State) : Instr → List Check
  | .getb i => [((specEntry s i).isNone, 2, i), (!s.rptV, 6, 0)] ++ layoutChecks s i
  | .getu8 i => [((specEntry s i).isNone, 2, i), (!s.rptV, 6, 0)] ++ layoutChecks s i
  | .gets16 lo hi =>
    [((specEntry s lo).isNone, 2, lo), ((specEntry s hi).isNone, 2, hi), (!s.rptV, 6, 0)] ++
      layoutChecks s lo ++ layoutChecks s hi ++ [(overlap s lo hi, 10, lo)]
  | .dzf src z =>
    [((zonesEntry s z).isNone, 4, z), ((valueReg s src).isNone, 7, srcBit src), (badPair s z, 12, z),
     (badOperand s src, 13, srcBit src)]
  | .satc src z rs =>
    [((zonesEntry s z).isNone, 4, z), ((rangeEntry s rs).isNone, 3, rs),
     ((valueReg s src).isNone, 7, srcBit src), (badRange s rs, 11, rs), (badPair s z, 12, z),
     (badFit s z rs, 12, z), (badOperand s src, 13, srcBit src)]
  | .cond src z rs =>
    [((zonesEntry s z).isNone, 4, z), ((rangeEntry s rs).isNone, 3, rs),
     ((valueReg s src).isNone, 7, srcBit src), (badRange s rs, 11, rs), (badPair s z, 12, z),
     (badFit s z rs, 12, z), (badOperand s src, 13, srcBit src)]
  | .xlat src rs rt =>
    [((rangeEntry s rs).isNone, 3, rs), ((rangeEntry s rt).isNone, 3, rt),
     ((valueReg s src).isNone, 7, srcBit src), (badRange s rs, 11, rs), (badRange s rt, 11, rt),
     (overflows s src rs rt, 14, 0)]
  | .axis a rt =>
    match axisEntry s a with
    | none => [(true, 5, a)]
    | some d =>
      let lo := d.lo.toNat
      let hi := d.hi.toNat
      let z := d.z.toNat
      [((rangeEntry s rt).isNone, 3, rt), ((specEntry s lo).isNone, 2, lo), ((specEntry s hi).isNone, 2, hi),
       (d.cond && (zonesEntry s z).isNone, 4, z), (!s.rptV, 6, 0)] ++
        layoutChecks s lo ++ layoutChecks s hi ++
        [(overlap s lo hi, 10, lo), (badRange s rt, 11, rt), (d.cond && badPair s z, 12, z),
         (d.cond && badFit s z 0, 12, z)]

/-- The check order of each transaction (60_exceptions.md R233): a command's decoding comes first. -/
def transactionChecks (s : State) : Txn → List Check
  | .issue w =>
    match decode w with
    | .ok i => commandChecks s i
    | .error _ => [(true, 1, 0)]
  | .writeSpec i _ _ => [(s.cfgLocked, 15, 0), (decide (s.cfg.nspec ≤ i.toNat), 2, i.toNat)]
  | .writeZones z _ _ => [(s.cfgLocked, 15, 0), (decide (s.cfg.nzones ≤ z.toNat), 4, z.toNat)]
  | .writeAxis a _ _ _ _ => [(s.cfgLocked, 15, 0), (decide (4 ≤ a.toNat), 5, a.toNat)]
  | .writeRange r _ _ => [(decide (r.toNat = 0 ∨ s.cfg.nrange ≤ r.toNat), 3, r.toNat)]
  | .lock => []
  | .reset => []
  | .writeArg _ => []
  | .loadReport _ => []
  | .readResult => []
  | .readStatus => []

/-- `FAULT_SRC` and `FAULT_CMD` of a fault in a transaction (60_exceptions.md R231). -/
def sourceOf : Txn → Bool × Word
  | .issue w => (false, w)
  | _ => (true, 0)

/-- `s` with the fault record of 60_exceptions.md R231 and nothing else changed. -/
def recorded (s : State) (code : Byte) (info : Nat) (src : Bool) (cmd : Word) : State :=
  { s with fault := true, faultCode := code, faultInfo := BitVec.ofNat 16 info, faultSrc := src, faultCmd := cmd }

/-- A row of the opcode map: its match, its mask, and the command that a word of the row stands for. -/
structure MapRow where
  code : Word
  mask : Word
  command : Instr

/-- The bits `len` up from `lo` of a word, as an unsigned number (00_scope.md R9). -/
def bits (w : Word) (lo len : Nat) : Nat := (w.extractLsb' lo len).toNat

/-- The operand register of bit 27 (30_encoding.md R71). -/
def srcAt (w : Word) : Src := if w.getLsbD 27 then .arg else .res

/-- The opcode map of 30_encoding.md R78, its commands with the fields that R71 gives them in `w`. -/
def opcodeMap (w : Word) : List MapRow :=
  [⟨0x10000000#32, 0xFFFFFF00#32, .getb (bits w 0 8)⟩,
   ⟨0x20000000#32, 0xFFFFFF00#32, .getu8 (bits w 0 8)⟩,
   ⟨0x30000000#32, 0xFFFF0000#32, .gets16 (bits w 0 8) (bits w 8 8)⟩,
   ⟨0x40000000#32, 0xF7FFFFF0#32, .dzf (srcAt w) (bits w 0 4)⟩,
   ⟨0x50000000#32, 0xF7FFF0F0#32, .satc (srcAt w) (bits w 0 4) (bits w 8 4)⟩,
   ⟨0x60000000#32, 0xF7FFF0F0#32, .cond (srcAt w) (bits w 0 4) (bits w 8 4)⟩,
   ⟨0x70000000#32, 0xF7FF00FF#32, .xlat (srcAt w) (bits w 8 4) (bits w 12 4)⟩,
   ⟨0x80000000#32, 0xFFFF0FF0#32, .axis (bits w 0 4) (bits w 12 4)⟩]

/-- The row's test of 30_encoding.md R78. -/
abbrev MapRow.Hit (r : MapRow) (w : Word) : Prop := w &&& r.mask = r.code

/-- `u` has the fault record of `s`, bit for bit (10_state.md R32). -/
abbrev SameRecord (s u : State) : Prop :=
  u.fault = s.fault ∧ u.faultCode = s.faultCode ∧ u.faultInfo = s.faultInfo ∧ u.faultSrc = s.faultSrc ∧
    u.faultCmd = s.faultCmd

/-- The transactions that some check of 60_exceptions.md R233 can make raise. -/
def canRaise : Txn → Bool
  | .issue _ => true
  | .writeSpec _ _ _ => true
  | .writeZones _ _ _ => true
  | .writeAxis _ _ _ _ _ => true
  | .writeRange _ _ _ => true
  | .lock => false
  | .reset => false
  | .writeArg _ => false
  | .loadReport _ => false
  | .readResult => false
  | .readStatus => false

/-- The reserved bits of an opcode's format (30_encoding.md R72 to R75). -/
def reservedBits (op : Nat) : Word :=
  match op with
  | 1 => 0x0FFFFF00#32
  | 2 => 0x0FFFFF00#32
  | 3 => 0x0FFF0000#32
  | 4 => 0x07FFFFF0#32
  | 5 => 0x07FFF0F0#32
  | 6 => 0x07FFF0F0#32
  | 7 => 0x07FF00FF#32
  | 8 => 0x0FFF0FF0#32
  | _ => 0#32

/-- A signed short from a high and a low masked byte (40_report_decode.md R105), as 16 bits. -/
def shortOf (h l : ButtonSpec) (bh bl : Byte) : Half := (bh &&& h.mask) ++ (bl &&& l.mask)

/-- The report holds a value at a ButtonSpec's offset, and the layout of the ButtonSpec is legal
(40_report_decode.md R101). -/
abbrev Readable (s : State) (e : ButtonSpec) (b : Byte) : Prop :=
  e.mask ≠ 0 ∧ e.off.toNat < s.cfg.reportLen ∧ reportByte s.rpt e.off.toNat = some b

/-- The zones fit the range `r` and the operand is an s16 (41_axis_conditioning.md R131, R132). -/
abbrev Conditionable (c : ConditioningZones) (r : AxisRange) (v : Word) : Prop :=
  r.min.toInt < r.max.toInt ∧ c.dz.toNat < c.mz.toNat ∧
    (c.mz.toNat < r.min.toInt.natAbs ∨ c.mz.toNat < r.max.toInt.natAbs) ∧ -32768 ≤ v.toInt ∧ v.toInt ≤ 32767

/-- The three regions of 41_axis_conditioning.md R135 with `M = 32767`. -/
def conditionedNative (raw : Int) (c : ConditioningZones) : Int :=
  if raw.natAbs < c.dz.toNat then 0
  else if c.mz.toNat < raw.natAbs then (if 0 ≤ raw then 32767 else -32767)
  else raw

/-- The exact real-valued translation of 42_range_mapping.md R161. -/
def translateReal (v : Int) (src dst : AxisRange) : ℚ :=
  dst.min.toInt + ((v - src.min.toInt : Int) : ℚ) / ((src.max.toInt - src.min.toInt : Int) : ℚ) *
    ((dst.max.toInt - dst.min.toInt : Int) : ℚ)

/-- Every row of the table of reset values (10_state.md R35), read as the commands and the host see it. -/
abbrev AtReset (u : State) : Prop :=
  (∀ i, specEntry u i = none) ∧ (∀ z, zonesEntry u z = none) ∧ (∀ r, 1 ≤ r → rangeEntry u r = none) ∧
    (0 < u.cfg.nrange → rangeEntry u 0 = some ⟨-32768, 32767⟩) ∧ (∀ a, axisEntry u a = none) ∧
    (∀ off, reportByte u.rpt off = none) ∧ u.rptV = false ∧ u.res = none ∧ u.arg = none ∧ u.cfgLocked = false ∧
    u.fault = false ∧ u.faultCode = 0 ∧ u.faultInfo = 0 ∧ u.faultSrc = false ∧ u.faultCmd = 0

/-- Everything a command that reads the report may depend on (70_reset_and_hazards.md R276), and `RANGE`, which AXIS
reads. -/
abbrev SameDeviceView (s t : State) : Prop :=
  s.cfg = t.cfg ∧ s.spec = t.spec ∧ s.zones = t.zones ∧ s.ranges = t.ranges ∧ s.axes = t.axes ∧ s.rpt = t.rpt ∧
    s.rptV = t.rptV

end Sys2Proof.Claims

open Sys2Proof Sys2Proof.Machine Sys2Proof.Claims

/-! ## Encoding -/

/-- 30_encoding.md R82: words of the spec's table of samples decode to the commands they stand for. -/
def Obligations.SampleWordsDecode : Prop :=
  decode 0x10000005#32 = .ok (.getb 5) ∧ decode 0x20000012#32 = .ok (.getu8 0x12) ∧
    decode 0x30000201#32 = .ok (.gets16 1 2) ∧ decode 0x48000001#32 = .ok (.dzf .arg 1) ∧
    decode 0x50000000#32 = .ok (.satc .res 0 0) ∧ decode 0x68000002#32 = .ok (.cond .arg 2 0) ∧
    decode 0x78001200#32 = .ok (.xlat .arg 2 1) ∧ decode 0x80002003#32 = .ok (.axis 3 2)

/-- 30_encoding.md R72 to R75, R78: every well-formed command, with every operand at every value its field admits,
decodes back from its word. -/
def Obligations.DecodeOfEncodeIsTheCommand : Prop :=
  ∀ i : Instr, i.wellFormed = true → decode (encode i) = .ok i

/-- 30_encoding.md R78, R79: a word that decodes is the word of exactly that command, so no bit of it is ignored. -/
def Obligations.EncodeOfDecodeIsTheWord : Prop :=
  ∀ (w : Word) (i : Instr), decode w = .ok i → i.wellFormed = true ∧ encode i = w

/-- 30_encoding.md R78: a word decodes to a command exactly when that command is the one of a row that matches it; no two
rows match one word; and a word that no row matches raises `ILLEGAL_CMD(0)`, whatever the state of a block without a
fault. -/
def Obligations.DecodingIsTheRowThatMatches : Prop :=
  (∀ (w : Word) (i : Instr), decode w = .ok i ↔ ∃ r ∈ opcodeMap w, r.Hit w ∧ r.command = i) ∧
    (∀ (w : Word) (r q : MapRow), r ∈ opcodeMap w → q ∈ opcodeMap w → r.Hit w → q.Hit w → r = q) ∧
    ∀ (s : State) (w : Word) (rest : List Txn), s.script = .issue w :: rest → s.fault = false →
      (∀ r ∈ opcodeMap w, ¬ r.Hit w) → step s = .next (recorded { s with script := rest } 1 0 false w)

/-- 30_encoding.md R79: an opcode 0x0 or 0x9..0xF, and a legal opcode with any reserved bit set, raise `ILLEGAL_CMD`
(code 1, info 0), with the command word recorded and nothing else changed. -/
def Obligations.IllegalWordsRaiseIllegalCmd : Prop :=
  ∀ (s : State) (w : Word) (rest : List Txn), s.script = .issue w :: rest → s.fault = false →
    (w.toNat / 2 ^ 28 = 0 ∨ 9 ≤ w.toNat / 2 ^ 28 ∨ w &&& reservedBits (w.toNat / 2 ^ 28) ≠ 0) →
    step s = .next (recorded { s with script := rest } 1 0 false w)

/-- 44_host_interface.md R209: when the host's next transaction issues a word that decodes, the step is that command's
meaning in the state whose script has moved past it. -/
def Obligations.StepRunsTheDecodedCommand : Prop :=
  ∀ (s : State) (w : Word) (rest : List Txn) (i : Instr), s.script = .issue w :: rest → s.fault = false →
    decode w = .ok i → step s = exec i { s with script := rest }

/-! ## The commands' results: each completes in the named state, so everything else is unchanged -/

/-- 40_report_decode.md R102. -/
def Obligations.GetbCompletes : Prop :=
  ∀ (i : Nat) (s : State) (e : ButtonSpec) (b : Byte), specEntry s i = some e → s.rptV = true → Readable s e b →
    exec (.getb i) s = .next { s with res := some (if b &&& e.mask = 0 then 0 else 1) }

/-- 40_report_decode.md R103: the masked byte, zero-extended and not shifted. -/
def Obligations.Getu8Completes : Prop :=
  ∀ (i : Nat) (s : State) (e : ButtonSpec) (b : Byte), specEntry s i = some e → s.rptV = true → Readable s e b →
    exec (.getu8 i) s = .next { s with res := some ((b &&& e.mask).zeroExtend 32) }

/-- 40_report_decode.md R104, R105: the high masked byte above the low one, sign-extended. -/
def Obligations.Gets16Completes : Prop :=
  ∀ (lo hi : Nat) (s : State) (l h : ButtonSpec) (bl bh : Byte), specEntry s lo = some l → specEntry s hi = some h →
    s.rptV = true → Readable s l bl → Readable s h bh → l.off ≠ h.off →
    exec (.gets16 lo hi) s = .next { s with res := some ((shortOf h l bh bl).signExtend 32) }

/-- 41_axis_conditioning.md R133, R136. -/
def Obligations.DzfCompletes : Prop :=
  ∀ (src : Src) (z : Nat) (s : State) (c : ConditioningZones) (v : Word), zonesEntry s z = some c →
    valueReg s src = some v → c.dz.toNat < c.mz.toNat → -32768 ≤ v.toInt → v.toInt ≤ 32767 →
    exec (.dzf src z) s = .next { s with res := some (if v.toInt.natAbs < c.dz.toNat then 0 else v) }

/-- 41_axis_conditioning.md R134, R137. -/
def Obligations.SatcCompletes : Prop :=
  ∀ (src : Src) (z rs : Nat) (s : State) (c : ConditioningZones) (r : AxisRange) (v : Word),
    zonesEntry s z = some c → rangeEntry s rs = some r → valueReg s src = some v → Conditionable c r v →
    exec (.satc src z rs) s =
      .next { s with
        res := some (if c.mz.toNat < v.toInt.natAbs then (if 0 ≤ v.toInt then r.max else -r.max) else v) }

/-- 41_axis_conditioning.md R135, R138: both comparisons strict, the linear region not rescaled. -/
def Obligations.CondCompletes : Prop :=
  ∀ (src : Src) (z rs : Nat) (s : State) (c : ConditioningZones) (r : AxisRange) (v : Word),
    zonesEntry s z = some c → rangeEntry s rs = some r → valueReg s src = some v → Conditionable c r v →
    exec (.cond src z rs) s =
      .next { s with
        res := some (
          if v.toInt.natAbs < c.dz.toNat then 0
          else if c.mz.toNat < v.toInt.natAbs then (if 0 ≤ v.toInt then r.max else -r.max)
          else v) }

/-- 42_range_mapping.md R162, R163, with `XLAT_ARITH = EXACT`: one exact quotient, truncated toward zero. -/
def Obligations.XlatExactCompletes : Prop :=
  ∀ (src : Src) (rs rt : Nat) (s : State) (a b : AxisRange) (v : Word) (y : Int), s.cfg.xlatArith = .exact →
    rangeEntry s rs = some a → rangeEntry s rt = some b → valueReg s src = some v → a.min.toInt < a.max.toInt →
    b.min.toInt < b.max.toInt →
    y = (b.min.toInt * (a.max.toInt - a.min.toInt) +
      (v.toInt - a.min.toInt) * (b.max.toInt - b.min.toInt)).tdiv (a.max.toInt - a.min.toInt) →
    -(2 ^ 31) ≤ y → y ≤ 2 ^ 31 - 1 →
    exec (.xlat src rs rt) s = .next { s with res := some (BitVec.ofInt 32 y) }

/-- 42_range_mapping.md R163, R164, with `XLAT_ARITH = BINARY64`, between two different ranges (for a range and itself see
`XlatToItsOwnRangeIsTheIdentity`): three roundings, then one truncation (log entries 7 and 8). -/
def Obligations.XlatBinary64Completes : Prop :=
  ∀ (src : Src) (rs rt : Nat) (s : State) (a b : AxisRange) (v : Word) (q p y : Int × Nat),
    s.cfg.xlatArith = .binary64 → rangeEntry s rs = some a → rangeEntry s rt = some b → valueReg s src = some v →
    a ≠ b → a.min.toInt < a.max.toInt → b.min.toInt < b.max.toInt →
    q = rn64 (v.toInt - a.min.toInt) (a.max.toInt - a.min.toInt).toNat →
    p = rn64 (q.1 * (b.max.toInt - b.min.toInt)) q.2 → y = rn64 (b.min.toInt * p.2 + p.1) p.2 →
    -(2 ^ 31) ≤ y.1.tdiv y.2 → y.1.tdiv y.2 ≤ 2 ^ 31 - 1 →
    exec (.xlat src rs rt) s = .next { s with res := some (BitVec.ofInt 32 (y.1.tdiv y.2)) }

/-- 43_joystick.md R180: decode, condition if the descriptor says so, translate from the native range; `c` is the
descriptor's zones entry and matters only where the axis is conditioned. -/
def Obligations.AxisCompletes : Prop :=
  ∀ (a rt : Nat) (s : State) (d : AxisDesc) (t : AxisRange) (l h : ButtonSpec) (bl bh : Byte) (c : ConditioningZones)
    (raw : Int), axisEntry s a = some d → rangeEntry s rt = some t → specEntry s d.lo.toNat = some l →
    specEntry s d.hi.toNat = some h →
    (d.cond = true → zonesEntry s d.z.toNat = some c ∧ c.dz.toNat < c.mz.toNat ∧ c.mz.toNat < 32768) →
    s.rptV = true → Readable s l bl → Readable s h bh → l.off ≠ h.off → t.min.toInt < t.max.toInt →
    raw = (shortOf h l bh bl).toInt →
    exec (.axis a rt) s =
      .next { s with
        res := some (BitVec.ofInt 32
          (xlatInt s.cfg.xlatArith (if d.cond then conditionedNative raw c else raw) nativeRange t)) }

/-- Every command of the table: where no check of its row of 60_exceptions.md R233 fails, it completes, writes `RES` and
changes nothing else (10_state.md R23). -/
def Obligations.CommandsCompleteWhereNoCheckFails : Prop :=
  ∀ (i : Instr) (s : State), s.Inv → firstFailing (commandChecks s i) = none →
    ∃ v, exec i s = .next { s with res := some v }

/-! ## Faults and frames -/

/-- 60_exceptions.md R231, R233: a transaction raises its first failing check, in the order of R233, with the record of
R231 and every other register unchanged. -/
def Obligations.TransactionRaisesItsFirstFailingCheck : Prop :=
  ∀ (s : State) (t : Txn) (rest : List Txn) (code : Byte) (info : Nat), s.script = t :: rest → s.fault = false →
    firstFailing (transactionChecks s t) = some (code, info) →
    step s = .next (recorded { s with script := rest } code info (sourceOf t).1 (sourceOf t).2)

/-- 00_scope.md R13: a command writes its result, or raises and changes no register except the fault record. -/
def Obligations.CommandWritesResultOrOnlyTheRecord : Prop :=
  ∀ (i : Instr) (s u : State), s.fault = false → exec i s = .next u →
    (∃ v, u = { s with res := some v }) ∨ ∃ code info, u = recorded s code info false (encode i)

/-- 10_state.md R36 and 40_report_decode.md R106: the frame of all eight commands, which store nothing: every table, the
parameters, `ARG`, the lock and every byte of the report are unchanged; the record is unchanged where the command
raises nothing, and `RES` is unchanged where it raises. -/
def Obligations.CommandsLeaveTheRestUnchanged : Prop :=
  ∀ (i : Instr) (s u : State), exec i s = .next u →
    u.cfg = s.cfg ∧ u.spec = s.spec ∧ u.zones = s.zones ∧ u.ranges = s.ranges ∧ u.axes = s.axes ∧ u.arg = s.arg ∧
    u.cfgLocked = s.cfgLocked ∧ u.rptV = s.rptV ∧ (∀ off, reportByte u.rpt off = reportByte s.rpt off) ∧
    u.script = s.script ∧ u.replies = s.replies ∧
    (u.fault = s.fault → u.faultCode = s.faultCode ∧ u.faultInfo = s.faultInfo ∧ u.faultSrc = s.faultSrc ∧
      u.faultCmd = s.faultCmd) ∧
    (u.fault ≠ s.fault → u.res = s.res)

/-- 44_host_interface.md R212: while `FAULT = 1`, every transaction except RESET, READ_RESULT and READ_STATUS has no
effect. -/
def Obligations.FaultedBlockIgnoresTransactions : Prop :=
  ∀ (s : State) (t : Txn) (rest : List Txn), s.script = t :: rest → s.fault = true → t.wellTyped s.cfg = true →
    t ≠ .reset → t ≠ .readResult → t ≠ .readStatus → step s = .next { s with script := rest }

/-- 60_exceptions.md R232, R235: no transaction but RESET clears a fault or changes its record. -/
def Obligations.OnlyResetLeavesAFault : Prop :=
  ∀ (s u : State), s.fault = true → step s = .next u → s.script.head? ≠ some .reset →
    u.fault = true ∧ u.faultCode = s.faultCode ∧ u.faultInfo = s.faultInfo ∧ u.faultSrc = s.faultSrc ∧
      u.faultCmd = s.faultCmd ∧ u.res = s.res

/-! ## Laws of the families -/

/-- 40_report_decode.md R106 item 1. -/
def Obligations.GetbIsOneExactlyWhereGetu8IsNotZero : Prop :=
  ∀ (i : Nat) (s u v : State), s.fault = false → exec (.getb i) s = .next u → exec (.getu8 i) s = .next v →
    u.fault = false → v.fault = false → (u.res = some 1 ↔ v.res ≠ some 0)

/-- 40_report_decode.md R106 item 2: an all-zero report decodes to 0. -/
def Obligations.AllZeroReportDecodesToZero : Prop :=
  ∀ (s u : State) (i : Instr), (∀ k b, reportByte s.rpt k = some b → b = 0) →
    ((∃ n, i = .getb n) ∨ (∃ n, i = .getu8 n) ∨ ∃ lo hi, i = .gets16 lo hi) → s.fault = false →
    exec i s = .next u → u.fault = false → u.res = some 0

/-- 41_axis_conditioning.md R139 item 1: one COND leaves the state that DZF and then SATC on `RES` leave. -/
def Obligations.CondIsDzfThenSatc : Prop :=
  ∀ (src : Src) (z rs : Nat) (s u : State), s.fault = false → exec (.cond src z rs) s = .next u → u.fault = false →
    ∃ m, exec (.dzf src z) s = .next m ∧ m.fault = false ∧ exec (.satc .res z rs) m = .next u

/-- 41_axis_conditioning.md R139 item 3: COND on the native range never yields -32768. -/
def Obligations.CondOnTheNativeRangeNeverYieldsMinimum : Prop :=
  ∀ (src : Src) (z : Nat) (s u : State), s.fault = false → exec (.cond src z 0) s = .next u → u.fault = false →
    ∃ w : Word, u.res = some w ∧ -32767 ≤ w.toInt ∧ w.toInt ≤ 32767

/-- 42_range_mapping.md R161, R162 and 00_scope.md R11: the exact result is the real value truncated toward zero. -/
def Obligations.ExactTranslationTruncatesTheRealValue : Prop :=
  ∀ (v : Int) (a b : AxisRange), a.min.toInt < a.max.toInt →
    xlatExact v a b = if 0 ≤ translateReal v a b then ⌊translateReal v a b⌋ else ⌈translateReal v a b⌉

/-- 42_range_mapping.md R165 item 1, in both arithmetics (BINARY64: log entry 7): the endpoints of the source range go
to those of the target, exactly. -/
def Obligations.XlatMapsEndpointsExactly : Prop :=
  ∀ (src : Src) (rs rt : Nat) (s : State) (a b : AxisRange) (v : Word),
    rangeEntry s rs = some a → rangeEntry s rt = some b → valueReg s src = some v → a.min.toInt < a.max.toInt →
    b.min.toInt < b.max.toInt →
    (v = a.min → exec (.xlat src rs rt) s = .next { s with res := some b.min }) ∧
      (v = a.max → exec (.xlat src rs rt) s = .next { s with res := some b.max })

/-- 42_range_mapping.md R165 item 2, in both arithmetics (BINARY64: log entry 7). -/
def Obligations.TranslationIsMonotone : Prop :=
  ∀ (arith : XlatArith) (v w : Int) (a b : AxisRange), a.min.toInt < a.max.toInt → b.min.toInt < b.max.toInt →
    v ≤ w → xlatInt arith v a b ≤ xlatInt arith w a b

/-- 42_range_mapping.md R165 item 3, in both arithmetics (BINARY64: log entry 7). -/
def Obligations.TranslationStaysWithinTheTarget : Prop :=
  ∀ (arith : XlatArith) (v : Int) (a b : AxisRange), a.min.toInt < a.max.toInt → b.min.toInt < b.max.toInt →
    a.min.toInt ≤ v → v ≤ a.max.toInt →
    b.min.toInt ≤ xlatInt arith v a b ∧ xlatInt arith v a b ≤ b.max.toInt

/-- 42_range_mapping.md R163 (corner cases) and R165 item 6, in both arithmetics (BINARY64: log entry 8): from a range to
itself (`rs = rt`, or two registers that hold one range), XLAT gives the operand exactly, in range or not. -/
def Obligations.XlatToItsOwnRangeIsTheIdentity : Prop :=
  ∀ (src : Src) (rs rt : Nat) (s : State) (a : AxisRange) (v : Word), rangeEntry s rs = some a →
    rangeEntry s rt = some a → valueReg s src = some v → a.min.toInt < a.max.toInt →
    exec (.xlat src rs rt) s = .next { s with res := some v }

/-- 42_range_mapping.md R164 (log entry 7): with `2 ^ e` the unit of a 53-bit significand in the quotient's own binade,
`RN64` yields the multiple `m` of that unit that is nearest the quotient, and the even one of two nearest. -/
def Obligations.RoundingIsToTheNearestBinary64 : Prop :=
  ∀ (n : Int) (d : Nat), n ≠ 0 → 0 < d →
    ∃ m e : Int, (2 : ℚ) ^ (52 + e) ≤ |(n : ℚ) / (d : ℚ)| ∧ |(n : ℚ) / (d : ℚ)| < (2 : ℚ) ^ (53 + e) ∧
      2 ^ 52 ≤ |m| ∧ |m| ≤ 2 ^ 53 ∧
      ((rn64 n d).1 : ℚ) / ((rn64 n d).2 : ℚ) = (m : ℚ) * (2 : ℚ) ^ e ∧
      |(n : ℚ) / (d : ℚ) - (m : ℚ) * (2 : ℚ) ^ e| ≤ (2 : ℚ) ^ e / 2 ∧
      (|(n : ℚ) / (d : ℚ) - (m : ℚ) * (2 : ℚ) ^ e| = (2 : ℚ) ^ e / 2 → Even m)

/-- 43_joystick.md R182: where AXIS and every command of its sequence complete, the sequence GETS16, COND on the native
range (if the axis is conditioned), XLAT from the native range leaves the state that AXIS leaves. -/
def Obligations.AxisEqualsItsCommandSequence : Prop :=
  ∀ (a rt : Nat) (s u m1 m2 m3 : State) (d : AxisDesc), axisEntry s a = some d → s.fault = false →
    exec (.axis a rt) s = .next u → u.fault = false →
    exec (.gets16 d.lo.toNat d.hi.toNat) s = .next m1 → m1.fault = false →
    (if d.cond then exec (.cond .res d.z.toNat 0) m1 = .next m2 else m2 = m1) → m2.fault = false →
    exec (.xlat .res 0 rt) m2 = .next m3 → m3.fault = false → m3 = u

/-- 43_joystick.md R180, R182, in both arithmetics (BINARY64: log entry 7): where AXIS completes, so does every
command of its sequence, in its order, and the sequence ends in the state AXIS ends in. -/
def Obligations.AxisSequenceCompletesWhereAxisDoes : Prop :=
  ∀ (a rt : Nat) (s u : State) (d : AxisDesc), axisEntry s a = some d → s.fault = false →
    exec (.axis a rt) s = .next u → u.fault = false →
    ∃ m1 m2, exec (.gets16 d.lo.toNat d.hi.toNat) s = .next m1 ∧ m1.fault = false ∧
      (if d.cond then exec (.cond .res d.z.toNat 0) m1 = .next m2 else m2 = m1) ∧ m2.fault = false ∧
      exec (.xlat .res 0 rt) m2 = .next u

/-- 43_joystick.md R184, in both arithmetics (BINARY64: log entry 7): full positive deflection gives the target's
maximum exactly; full negative deflection gives the translation of -32767. -/
def Obligations.ConditionedAxisAtFullDeflection : Prop :=
  ∀ (a rt : Nat) (s u : State) (d : AxisDesc) (t : AxisRange) (l h : ButtonSpec) (bl bh : Byte)
    (c : ConditioningZones), axisEntry s a = some d → d.cond = true →
    rangeEntry s rt = some t → zonesEntry s d.z.toNat = some c → specEntry s d.lo.toNat = some l →
    specEntry s d.hi.toNat = some h → reportByte s.rpt l.off.toNat = some bl →
    reportByte s.rpt h.off.toNat = some bh → s.fault = false → exec (.axis a rt) s = .next u → u.fault = false →
    ((c.mz.toNat : Int) + 1 ≤ (shortOf h l bh bl).toInt → u.res = some t.max) ∧
      ((shortOf h l bh bl).toInt ≤ -((c.mz.toNat : Int) + 1) →
        u.res = some (BitVec.ofInt 32 (xlatInt s.cfg.xlatArith (-32767) nativeRange t)))

/-- 70_reset_and_hazards.md R276: the result of a command that reads the report depends on the configuration, the
report and the command alone (and, for AXIS, on `RANGE`): not on `RES`, `ARG`, the lock, the record, or what the host
has read. -/
def Obligations.ReportCommandsSeeOnlyConfigurationAndReport : Prop :=
  ∀ (i : Instr) (s t : State) (v : Word),
    ((∃ n, i = .getb n) ∨ (∃ n, i = .getu8 n) ∨ (∃ lo hi, i = .gets16 lo hi) ∨ ∃ a rt, i = .axis a rt) →
    SameDeviceView s t → s.fault = false → t.fault = false →
    exec i s = .next { s with res := some v } → exec i t = .next { t with res := some v }

/-! ## Host transactions -/

/-- 44_host_interface.md R201. -/
def Obligations.WriteSpecWritesOneEntryOrFaults : Prop :=
  ∀ (s : State) (i : Byte) (off : Half) (mask : Byte) (rest : List Txn),
    s.script = .writeSpec i off mask :: rest →
    (s.fault = true → step s = .next { s with script := rest }) ∧
    (s.fault = false → s.cfgLocked = true → step s = .next (recorded { s with script := rest } 15 0 true 0)) ∧
    (s.fault = false → s.cfgLocked = false → s.cfg.nspec ≤ i.toNat →
      step s = .next (recorded { s with script := rest } 2 i.toNat true 0)) ∧
    (s.fault = false → s.cfgLocked = false → i.toNat < s.cfg.nspec →
      ∃ t, step s = .next { s with script := rest, spec := t } ∧
        specEntry { s with spec := t } i.toNat = some ⟨off, mask⟩ ∧
        ∀ j, j ≠ i.toNat → specEntry { s with spec := t } j = specEntry s j)

/-- 44_host_interface.md R202. -/
def Obligations.WriteZonesWritesOneEntryOrFaults : Prop :=
  ∀ (s : State) (z : BitVec 4) (dz mz : Half) (rest : List Txn), s.script = .writeZones z dz mz :: rest →
    (s.fault = true → step s = .next { s with script := rest }) ∧
    (s.fault = false → s.cfgLocked = true → step s = .next (recorded { s with script := rest } 15 0 true 0)) ∧
    (s.fault = false → s.cfgLocked = false → s.cfg.nzones ≤ z.toNat →
      step s = .next (recorded { s with script := rest } 4 z.toNat true 0)) ∧
    (s.fault = false → s.cfgLocked = false → z.toNat < s.cfg.nzones →
      ∃ t, step s = .next { s with script := rest, zones := t } ∧
        zonesEntry { s with zones := t } z.toNat = some ⟨dz, mz⟩ ∧
        ∀ j, j ≠ z.toNat → zonesEntry { s with zones := t } j = zonesEntry s j)

/-- 44_host_interface.md R203. -/
def Obligations.WriteAxisWritesOneEntryOrFaults : Prop :=
  ∀ (s : State) (a : BitVec 4) (lo hi : Byte) (cond : Bool) (z : BitVec 4) (rest : List Txn),
    s.script = .writeAxis a lo hi cond z :: rest →
    (s.fault = true → step s = .next { s with script := rest }) ∧
    (s.fault = false → s.cfgLocked = true → step s = .next (recorded { s with script := rest } 15 0 true 0)) ∧
    (s.fault = false → s.cfgLocked = false → 4 ≤ a.toNat →
      step s = .next (recorded { s with script := rest } 5 a.toNat true 0)) ∧
    (s.fault = false → s.cfgLocked = false → a.toNat < 4 →
      ∃ t, step s = .next { s with script := rest, axes := t } ∧
        axisEntry { s with axes := t } a.toNat = some ⟨lo, hi, cond, z⟩ ∧
        ∀ j, j ≠ a.toNat → axisEntry { s with axes := t } j = axisEntry s j)

/-- 44_host_interface.md R204: `RANGE[0]` cannot be written, the others can whether locked or not. -/
def Obligations.WriteRangeWritesOneEntryOrFaults : Prop :=
  ∀ (s : State) (r : BitVec 4) (min max : Word) (rest : List Txn), s.script = .writeRange r min max :: rest →
    (s.fault = true → step s = .next { s with script := rest }) ∧
    (s.fault = false → r.toNat = 0 ∨ s.cfg.nrange ≤ r.toNat →
      step s = .next (recorded { s with script := rest } 3 r.toNat true 0)) ∧
    (s.fault = false → r.toNat ≠ 0 → r.toNat < s.cfg.nrange →
      ∃ t, step s = .next { s with script := rest, ranges := t } ∧
        rangeEntry { s with ranges := t } r.toNat = some ⟨min, max⟩ ∧
        ∀ j, j ≠ r.toNat → rangeEntry { s with ranges := t } j = rangeEntry s j)

/-- 44_host_interface.md R208: the whole report is replaced, byte for byte. -/
def Obligations.LoadReportReplacesTheWholeReport : Prop :=
  ∀ (s : State) (bytes : List Byte) (rest : List Txn), s.script = .loadReport bytes :: rest →
    bytes.length = s.cfg.reportLen →
    (s.fault = true → step s = .next { s with script := rest }) ∧
    (s.fault = false →
      ∃ m, step s = .next { s with script := rest, rpt := m, rptV := true } ∧ ∀ k, reportByte m k = bytes[k]?)

/-- 44_host_interface.md R207. -/
def Obligations.WriteArgLoadsTheOperandRegister : Prop :=
  ∀ (s : State) (v : Word) (rest : List Txn), s.script = .writeArg v :: rest →
    step s = .next { s with script := rest, arg := if s.fault then s.arg else some v }

/-- 10_state.md R31: LOCK sets `CFG_LOCKED` and only RESET clears it; while it is 1 the three configuration writes raise
`CFG_LOCKED` instead of writing, and no step but RESET changes `SPEC`, `ZONES` or `AXIS`. -/
def Obligations.LockFreezesTheConfiguration : Prop :=
  (∀ (s : State) (rest : List Txn), s.script = .lock :: rest → s.fault = false →
    step s = .next { s with script := rest, cfgLocked := true }) ∧
  (∀ (s : State) (t : Txn) (rest : List Txn), s.script = t :: rest → s.fault = false → s.cfgLocked = true →
    ((∃ i off mask, t = .writeSpec i off mask) ∨ (∃ z dz mz, t = .writeZones z dz mz) ∨
      ∃ a lo hi cond z, t = .writeAxis a lo hi cond z) →
    step s = .next (recorded { s with script := rest } 15 0 true 0)) ∧
  ∀ (s u : State), s.cfgLocked = true → step s = .next u → s.script.head? ≠ some .reset →
    u.cfgLocked = true ∧ u.spec = s.spec ∧ u.zones = s.zones ∧ u.axes = s.axes

/-- 10_state.md R35: after RESET, in whatever state it comes, and after power-on, every piece of the block's state has its
reset value. -/
def Obligations.ResetLeavesTheResetValues : Prop :=
  (∀ (s : State) (rest : List Txn), s.script = .reset :: rest → ∃ u, step s = .next u ∧ AtReset u) ∧
    ∀ p : Config, AtReset (State.resetWith p)

/-- Log entries 1 and 3, the model's own choice: RESET keeps the parameters and what belongs to the host, its script and
the replies it has had. -/
def Obligations.ResetKeepsTheParametersAndTheHostsSide : Prop :=
  ∀ (s u : State) (rest : List Txn), s.script = .reset :: rest → step s = .next u →
    u.cfg = s.cfg ∧ u.script = rest ∧ u.replies = s.replies

/-- 44_host_interface.md R210, R211: the reads act in every state, return `(RES_V, RES)` and the status tuple, and change
no state of the block. -/
def Obligations.ReadsReturnStateAndChangeNone : Prop :=
  (∀ (s : State) (rest : List Txn), s.script = .readResult :: rest →
    step s = .next { s with script := rest, replies := s.replies ++ [.result s.res] }) ∧
  ∀ (s : State) (rest : List Txn), s.script = .readStatus :: rest →
    step s = .next { s with
      script := rest
      replies := s.replies ++
        [.status ⟨s.fault, s.faultCode, s.faultInfo, s.faultSrc, s.faultCmd, s.cfgLocked, s.rptV, s.arg.isSome,
          s.res.isSome⟩] }

/-- 10_state.md R36: each piece of state, the fault record among them, changes only in the transactions that write it. The
model's own choices beside it: RESET too keeps the parameters (log entry 3), and the script moves on and only the reads
change the replies (log entry 1). -/
def Obligations.EachRegisterHasItsOwnWriters : Prop :=
  ∀ (s u : State) (t : Txn) (rest : List Txn), s.script = t :: rest → step s = .next u →
    u.cfg = s.cfg ∧ u.script = rest ∧
    (u.spec = s.spec ∨ t = .reset ∨ ∃ i off mask, t = .writeSpec i off mask) ∧
    (u.zones = s.zones ∨ t = .reset ∨ ∃ z dz mz, t = .writeZones z dz mz) ∧
    (u.ranges = s.ranges ∨ t = .reset ∨ ∃ r min max, t = .writeRange r min max) ∧
    (u.axes = s.axes ∨ t = .reset ∨ ∃ a lo hi cond z, t = .writeAxis a lo hi cond z) ∧
    ((u.rpt = s.rpt ∧ u.rptV = s.rptV) ∨ t = .reset ∨ ∃ bytes, t = .loadReport bytes) ∧
    (u.arg = s.arg ∨ t = .reset ∨ ∃ v, t = .writeArg v) ∧
    (u.res = s.res ∨ t = .reset ∨ ∃ w, t = .issue w) ∧
    (u.cfgLocked = s.cfgLocked ∨ t = .reset ∨ t = .lock) ∧
    (SameRecord s u ∨ t = .reset ∨ (canRaise t = true ∧ s.fault = false ∧ u.fault = true)) ∧
    (u.replies = s.replies ∨ t = .readResult ∨ t = .readStatus)

/-- 70_reset_and_hazards.md R271, in both arithmetics (BINARY64: log entry 8): what succeeds and what faults right after
reset, for every operand; the first clause says it of the two transactions, WRITE_ARG and ISSUE of `XLAT ARG, 0, 0`, the
second of the command alone. -/
def Obligations.RightAfterReset : Prop :=
  ∀ p : Config, p.Legal →
    (∀ (v : Word) (rest : List Txn),
      Sys2Proof.core.run 2 { State.resetWith p with script := .writeArg v :: .issue 0x78000000#32 :: rest } =
        .next { State.resetWith p with arg := some v, res := some v, script := rest }) ∧
    (∀ (s : State) (v : Word), s = { State.resetWith p with arg := some v } →
      exec (.xlat .arg 0 0) s = .next { s with res := some v }) ∧
    (∀ (s : State) (n lo hi a rt : Nat), s = State.resetWith p →
      exec (.getb n) s = .next (recorded s 2 n false (encode (.getb n))) ∧
      exec (.getu8 n) s = .next (recorded s 2 n false (encode (.getu8 n))) ∧
      exec (.gets16 lo hi) s = .next (recorded s 2 lo false (encode (.gets16 lo hi))) ∧
      exec (.axis a rt) s = .next (recorded s 5 a false (encode (.axis a rt)))) ∧
    (∀ (s : State) (src : Src) (z rs : Nat), s = State.resetWith p →
      exec (.dzf src z) s = .next (recorded s 4 z false (encode (.dzf src z))) ∧
      exec (.satc src z rs) s = .next (recorded s 4 z false (encode (.satc src z rs))) ∧
      exec (.cond src z rs) s = .next (recorded s 4 z false (encode (.cond src z rs)))) ∧
    ∀ s : State, s = State.resetWith p →
      exec (.xlat .res 0 0) s = .next (recorded s 7 0 false (encode (.xlat .res 0 0)))

/-! ## Invariant -/

/-- The state after reset, for every legal choice of the parameters, meets the invariant (10_state.md R35). -/
def Obligations.ResetMeetsTheInvariant : Prop :=
  ∀ p : Config, p.Legal → (State.resetWith p).Inv

/-- Every step keeps the invariant: legal parameters, tables in form and bounds (10_state.md R26 to R29), a report that is
whole or absent (R30), and a fault record that is clear or holds a code 1..15 (60_exceptions.md R230: codes 16..255 are
never written). -/
def Obligations.EveryStepKeepsTheInvariant : Prop :=
  ∀ s u : State, s.Inv → step s = .next u → u.Inv

/-! ## The reference device -/

/-- 70_reset_and_hazards.md R272 (steps 1 to 4) and R273: the boot for the reference device, run on a block after reset
whose `REF_LAYOUT` is `l` (00_scope.md R8), leaves its tables holding exactly `l`'s entries and locked, no fault, and the
rest as reset leaves it. How the host's script reaches the block is log entry 1. -/
def Obligations.ReferenceBootLoadsTheLayoutAndLocks : Prop :=
  ∀ (p : Config) (l : Layout) (rest : List Txn), p.Legal → p.refLayout = some l →
    Sys2Proof.core.run (referenceBoot p).length { State.resetWith p with script := referenceBoot p ++ rest } =
      .next { State.resetWith p with
        spec := l.spec, zones := l.zones, axes := l.axes, cfgLocked := true, script := rest }

/-- 43_joystick.md R181 and 20_memory.md R52: in a block that holds the reference device's tables, LX and LY are
conditioned and RX and RY are not, and GETS16 of an axis's two entries reads the little-endian 16-bit field at its low
byte's offset. -/
def Obligations.ReferenceAxesAreLittleEndianFields : Prop :=
  ∀ (s : State) (l : Layout) (a : Nat), s.cfg.Legal → s.cfg.refLayout = some l → l.IsReference → s.spec = l.spec →
    s.axes = l.axes → a < 4 →
    ∃ (d : AxisDesc) (lo : ButtonSpec), axisEntry s a = some d ∧ d.cond = decide (a < 2) ∧
      specEntry s d.lo.toNat = some lo ∧
      ∀ bl bh : Byte, s.rptV = true → lo.off.toNat + 1 < s.cfg.reportLen → reportByte s.rpt lo.off.toNat = some bl →
        reportByte s.rpt (lo.off.toNat + 1) = some bh →
        exec (.gets16 d.lo.toNat d.hi.toNat) s = .next { s with res := some ((bh ++ bl).signExtend 32) }
end

