-- ==== Sys2Proof/Laws/Arith.lean ====
section
/-! SUPPORT. The arithmetic of the commands in the words of `BitVec`. -/

namespace Sys2Proof.Machine

/-- `s16` of 00_scope.md R10 is two's complement. -/
theorem s16_eq_toInt (w : Half) : s16 w = w.toInt := by
  simp only [s16, BitVec.toInt]
  have := w.isLt
  split <;> split <;> omega

/-- The shift and OR of 40_report_decode.md R105 put the high byte above the low one. -/
theorem signedShort_eq_append (h l : Byte) : signedShort h l = (h ++ l).toInt := by
  rw [signedShort, s16_eq_toInt]
  congr 1
  apply BitVec.eq_of_getLsbD_eq
  intro k hk
  rw [BitVec.getLsbD_append]
  by_cases h8 : k < 8
  · simp [h8]; omega
  · simp [h8]
    rw [BitVec.getLsbD_of_ge l k (by omega)]
    simp [hk, show k - 8 < 16 by omega]

@[simp] theorem toWord_toInt (v : Word) : toWord v.toInt = v := by simp [toWord]

@[simp] theorem toWord_zero : toWord 0 = 0 := rfl

theorem toWord_neg (v : Word) : toWord (-v.toInt) = -v := by simp [toWord, BitVec.ofInt_neg]

/-- A signed short in `RES` is its sign extension. -/
theorem toWord_short (x : Half) : toWord x.toInt = x.signExtend 32 := rfl

theorem fitsS32_iff {v : Int} : fitsS32 v = true ↔ -(2 ^ 31) ≤ v ∧ v ≤ 2 ^ 31 - 1 := by
  simp [fitsS32]

/-- An integer that fits s32 is kept by the register. -/
theorem toInt_toWord {v : Int} (h : fitsS32 v = true) : (toWord v).toInt = v := by
  rw [fitsS32_iff] at h
  rw [toWord, BitVec.toInt_ofInt]
  exact Int.bmod_eq_of_le (by omega) (by omega)

theorem native_min : nativeRange.min.toInt = -32768 := by decide

theorem native_max : nativeRange.max.toInt = 32767 := by decide

/-- What BINARY64 gives from a range to itself, and between two different ranges (log entry 8). -/
@[simp] theorem xlatInt_binary64_self (v : Int) (a : AxisRange) : xlatInt .binary64 v a a = v := if_pos rfl

theorem xlatInt_binary64_of_ne (v : Int) {a b : AxisRange} (h : a ≠ b) :
    xlatInt .binary64 v a b = xlatBinary64 v a b := if_neg h

end Sys2Proof.Machine
end

