-- ==== Sys2Proof/Laws/Decode.lean ====
section
/-! SUPPORT. A word matches a row of the opcode map (30_encoding.md R78) exactly when its opcode is the row's and its
reserved fields are 0 (R72 to R75). -/

namespace Sys2Proof

/-- The field of a bitwise AND is the AND of the fields. -/
theorem field_and (w m : Word) (hi lo : Nat) : field (w &&& m) hi lo = field w hi lo &&& field m hi lo := by
  simp only [field, BitVec.toNat_and, Nat.and_div_two_pow, Nat.and_mod_two_pow]

/-- Where a mask's field is all ones, masking keeps the word's field. -/
theorem field_and_ones {w m : Word} {hi lo : Nat} (h : field m hi lo = 2 ^ (hi + 1 - lo) - 1) :
    field (w &&& m) hi lo = field w hi lo := by
  rw [field_and, h, Nat.and_two_pow_sub_one_eq_mod]
  simp [field]

/-- Where a mask's field is 0, so is the masked word's. -/
theorem field_and_zeros {w m : Word} {hi lo : Nat} (h : field m hi lo = 0) : field (w &&& m) hi lo = 0 := by
  rw [field_and, h, Nat.and_zero]

theorem rowHits_iff {r : OpRow} {w : Word} : rowHits r w = true ↔ w &&& r.mask = r.pat := by
  simp [rowHits]

theorem rowHits_getb_iff (w : Word) : rowHits rowGETB w = true ↔ field w 31 28 = 1 ∧ field w 27 8 = 0 := by
  rw [rowHits_iff, ← field_and_ones (w := w) (m := rowGETB.mask) (hi := 31) (lo := 28) (by decide),
    ← field_and_ones (w := w) (m := rowGETB.mask) (hi := 27) (lo := 8) (by decide)]
  have h0 := field_and_zeros (w := w) (m := rowGETB.mask) (hi := 7) (lo := 0) (by decide)
  generalize w &&& rowGETB.mask = x at *
  rw [BitVec.toNat_eq]
  have := x.isLt
  simp only [field, rowGETB] at *
  norm_num at *
  omega

theorem rowHits_getu8_iff (w : Word) : rowHits rowGETU8 w = true ↔ field w 31 28 = 2 ∧ field w 27 8 = 0 := by
  rw [rowHits_iff, ← field_and_ones (w := w) (m := rowGETU8.mask) (hi := 31) (lo := 28) (by decide),
    ← field_and_ones (w := w) (m := rowGETU8.mask) (hi := 27) (lo := 8) (by decide)]
  have h0 := field_and_zeros (w := w) (m := rowGETU8.mask) (hi := 7) (lo := 0) (by decide)
  generalize w &&& rowGETU8.mask = x at *
  rw [BitVec.toNat_eq]
  have := x.isLt
  simp only [field, rowGETU8] at *
  norm_num at *
  omega

theorem rowHits_gets16_iff (w : Word) : rowHits rowGETS16 w = true ↔ field w 31 28 = 3 ∧ field w 27 16 = 0 := by
  rw [rowHits_iff, ← field_and_ones (w := w) (m := rowGETS16.mask) (hi := 31) (lo := 28) (by decide),
    ← field_and_ones (w := w) (m := rowGETS16.mask) (hi := 27) (lo := 16) (by decide)]
  have h0 := field_and_zeros (w := w) (m := rowGETS16.mask) (hi := 15) (lo := 0) (by decide)
  generalize w &&& rowGETS16.mask = x at *
  rw [BitVec.toNat_eq]
  have := x.isLt
  simp only [field, rowGETS16] at *
  norm_num at *
  omega

theorem rowHits_dzf_iff (w : Word) : rowHits rowDZF w = true ↔ field w 31 28 = 4 ∧ field w 26 4 = 0 := by
  rw [rowHits_iff, ← field_and_ones (w := w) (m := rowDZF.mask) (hi := 31) (lo := 28) (by decide),
    ← field_and_ones (w := w) (m := rowDZF.mask) (hi := 26) (lo := 4) (by decide)]
  have h0 := field_and_zeros (w := w) (m := rowDZF.mask) (hi := 3) (lo := 0) (by decide)
  have h1 := field_and_zeros (w := w) (m := rowDZF.mask) (hi := 27) (lo := 27) (by decide)
  generalize w &&& rowDZF.mask = x at *
  rw [BitVec.toNat_eq]
  have := x.isLt
  simp only [field, rowDZF] at *
  norm_num at *
  omega

theorem rowHits_satc_iff (w : Word) :
    rowHits rowSATC w = true ↔ field w 31 28 = 5 ∧ field w 26 12 = 0 ∧ field w 7 4 = 0 := by
  rw [rowHits_iff, ← field_and_ones (w := w) (m := rowSATC.mask) (hi := 31) (lo := 28) (by decide),
    ← field_and_ones (w := w) (m := rowSATC.mask) (hi := 26) (lo := 12) (by decide),
    ← field_and_ones (w := w) (m := rowSATC.mask) (hi := 7) (lo := 4) (by decide)]
  have h0 := field_and_zeros (w := w) (m := rowSATC.mask) (hi := 3) (lo := 0) (by decide)
  have h1 := field_and_zeros (w := w) (m := rowSATC.mask) (hi := 11) (lo := 8) (by decide)
  have h2 := field_and_zeros (w := w) (m := rowSATC.mask) (hi := 27) (lo := 27) (by decide)
  generalize w &&& rowSATC.mask = x at *
  rw [BitVec.toNat_eq]
  have := x.isLt
  simp only [field, rowSATC] at *
  norm_num at *
  omega

theorem rowHits_cond_iff (w : Word) :
    rowHits rowCOND w = true ↔ field w 31 28 = 6 ∧ field w 26 12 = 0 ∧ field w 7 4 = 0 := by
  rw [rowHits_iff, ← field_and_ones (w := w) (m := rowCOND.mask) (hi := 31) (lo := 28) (by decide),
    ← field_and_ones (w := w) (m := rowCOND.mask) (hi := 26) (lo := 12) (by decide),
    ← field_and_ones (w := w) (m := rowCOND.mask) (hi := 7) (lo := 4) (by decide)]
  have h0 := field_and_zeros (w := w) (m := rowCOND.mask) (hi := 3) (lo := 0) (by decide)
  have h1 := field_and_zeros (w := w) (m := rowCOND.mask) (hi := 11) (lo := 8) (by decide)
  have h2 := field_and_zeros (w := w) (m := rowCOND.mask) (hi := 27) (lo := 27) (by decide)
  generalize w &&& rowCOND.mask = x at *
  rw [BitVec.toNat_eq]
  have := x.isLt
  simp only [field, rowCOND] at *
  norm_num at *
  omega

theorem rowHits_xlat_iff (w : Word) :
    rowHits rowXLAT w = true ↔ field w 31 28 = 7 ∧ field w 26 16 = 0 ∧ field w 7 0 = 0 := by
  rw [rowHits_iff, ← field_and_ones (w := w) (m := rowXLAT.mask) (hi := 31) (lo := 28) (by decide),
    ← field_and_ones (w := w) (m := rowXLAT.mask) (hi := 26) (lo := 16) (by decide),
    ← field_and_ones (w := w) (m := rowXLAT.mask) (hi := 7) (lo := 0) (by decide)]
  have h0 := field_and_zeros (w := w) (m := rowXLAT.mask) (hi := 15) (lo := 8) (by decide)
  have h1 := field_and_zeros (w := w) (m := rowXLAT.mask) (hi := 27) (lo := 27) (by decide)
  generalize w &&& rowXLAT.mask = x at *
  rw [BitVec.toNat_eq]
  have := x.isLt
  simp only [field, rowXLAT] at *
  norm_num at *
  omega

theorem rowHits_axis_iff (w : Word) :
    rowHits rowAXIS w = true ↔ field w 31 28 = 8 ∧ field w 27 16 = 0 ∧ field w 11 4 = 0 := by
  rw [rowHits_iff, ← field_and_ones (w := w) (m := rowAXIS.mask) (hi := 31) (lo := 28) (by decide),
    ← field_and_ones (w := w) (m := rowAXIS.mask) (hi := 27) (lo := 16) (by decide),
    ← field_and_ones (w := w) (m := rowAXIS.mask) (hi := 11) (lo := 4) (by decide)]
  have h0 := field_and_zeros (w := w) (m := rowAXIS.mask) (hi := 3) (lo := 0) (by decide)
  have h1 := field_and_zeros (w := w) (m := rowAXIS.mask) (hi := 15) (lo := 12) (by decide)
  generalize w &&& rowAXIS.mask = x at *
  rw [BitVec.toNat_eq]
  have := x.isLt
  simp only [field, rowAXIS] at *
  norm_num at *
  omega

/-! A word that matches a row decodes by it: the rows' opcodes differ, so no row before it matches. -/

theorem rowHits_false {r : OpRow} {w : Word} {n k : Nat} {rest : Prop}
    (h : rowHits r w = true ↔ field w 31 28 = n ∧ rest) (hk : field w 31 28 = k) (hne : k ≠ n) : rowHits r w = false := by
  cases hr : rowHits r w
  · rfl
  · exact absurd (hk.symm.trans (h.1 hr).1) hne

theorem decode_getb {w : Word} (h : rowHits rowGETB w = true) : decode w = .ok (Instr.getb (field w 7 0)) := by
  simp [decode, h]

theorem decode_getu8 {w : Word} (h : rowHits rowGETU8 w = true) : decode w = .ok (Instr.getu8 (field w 7 0)) := by
  have hop := ((rowHits_getu8_iff w).1 h).1
  simp [decode, h,
    rowHits_false (rowHits_getb_iff w) hop (by decide)]

theorem decode_gets16 {w : Word} (h : rowHits rowGETS16 w = true) : decode w = .ok (Instr.gets16 (field w 7 0) (field w 15 8)) := by
  have hop := ((rowHits_gets16_iff w).1 h).1
  simp [decode, h,
    rowHits_false (rowHits_getb_iff w) hop (by decide),
    rowHits_false (rowHits_getu8_iff w) hop (by decide)]

theorem decode_dzf {w : Word} (h : rowHits rowDZF w = true) : decode w = .ok (Instr.dzf (srcOf w) (field w 3 0)) := by
  have hop := ((rowHits_dzf_iff w).1 h).1
  simp [decode, h,
    rowHits_false (rowHits_getb_iff w) hop (by decide),
    rowHits_false (rowHits_getu8_iff w) hop (by decide),
    rowHits_false (rowHits_gets16_iff w) hop (by decide)]

theorem decode_satc {w : Word} (h : rowHits rowSATC w = true) : decode w = .ok (Instr.satc (srcOf w) (field w 3 0) (field w 11 8)) := by
  have hop := ((rowHits_satc_iff w).1 h).1
  simp [decode, h,
    rowHits_false (rowHits_getb_iff w) hop (by decide),
    rowHits_false (rowHits_getu8_iff w) hop (by decide),
    rowHits_false (rowHits_gets16_iff w) hop (by decide),
    rowHits_false (rowHits_dzf_iff w) hop (by decide)]

theorem decode_cond {w : Word} (h : rowHits rowCOND w = true) : decode w = .ok (Instr.cond (srcOf w) (field w 3 0) (field w 11 8)) := by
  have hop := ((rowHits_cond_iff w).1 h).1
  simp [decode, h,
    rowHits_false (rowHits_getb_iff w) hop (by decide),
    rowHits_false (rowHits_getu8_iff w) hop (by decide),
    rowHits_false (rowHits_gets16_iff w) hop (by decide),
    rowHits_false (rowHits_dzf_iff w) hop (by decide),
    rowHits_false (rowHits_satc_iff w) hop (by decide)]

theorem decode_xlat {w : Word} (h : rowHits rowXLAT w = true) : decode w = .ok (Instr.xlat (srcOf w) (field w 11 8) (field w 15 12)) := by
  have hop := ((rowHits_xlat_iff w).1 h).1
  simp [decode, h,
    rowHits_false (rowHits_getb_iff w) hop (by decide),
    rowHits_false (rowHits_getu8_iff w) hop (by decide),
    rowHits_false (rowHits_gets16_iff w) hop (by decide),
    rowHits_false (rowHits_dzf_iff w) hop (by decide),
    rowHits_false (rowHits_satc_iff w) hop (by decide),
    rowHits_false (rowHits_cond_iff w) hop (by decide)]

theorem decode_axis {w : Word} (h : rowHits rowAXIS w = true) : decode w = .ok (Instr.axis (field w 3 0) (field w 15 12)) := by
  have hop := ((rowHits_axis_iff w).1 h).1
  simp [decode, h,
    rowHits_false (rowHits_getb_iff w) hop (by decide),
    rowHits_false (rowHits_getu8_iff w) hop (by decide),
    rowHits_false (rowHits_gets16_iff w) hop (by decide),
    rowHits_false (rowHits_dzf_iff w) hop (by decide),
    rowHits_false (rowHits_satc_iff w) hop (by decide),
    rowHits_false (rowHits_cond_iff w) hop (by decide),
    rowHits_false (rowHits_xlat_iff w) hop (by decide)]

end Sys2Proof
end

