-- ==== Sys2Proof/Laws/State.lean ====
section
/-! SUPPORT. One lemma per field per setter, and per field for RESET, so that no proof unfolds a record update. -/

namespace Sys2Proof.Machine

@[simp] theorem setSpec_cfg (s : State) (t : List (Nat × ButtonSpec)) : (setSpec s t).cfg = s.cfg := rfl
@[simp] theorem setSpec_spec (s : State) (t : List (Nat × ButtonSpec)) : (setSpec s t).spec = t := rfl
@[simp] theorem setSpec_zones (s : State) (t : List (Nat × ButtonSpec)) : (setSpec s t).zones = s.zones := rfl
@[simp] theorem setSpec_ranges (s : State) (t : List (Nat × ButtonSpec)) : (setSpec s t).ranges = s.ranges := rfl
@[simp] theorem setSpec_axes (s : State) (t : List (Nat × ButtonSpec)) : (setSpec s t).axes = s.axes := rfl
@[simp] theorem setSpec_rpt (s : State) (t : List (Nat × ButtonSpec)) : (setSpec s t).rpt = s.rpt := rfl
@[simp] theorem setSpec_rptV (s : State) (t : List (Nat × ButtonSpec)) : (setSpec s t).rptV = s.rptV := rfl
@[simp] theorem setSpec_res (s : State) (t : List (Nat × ButtonSpec)) : (setSpec s t).res = s.res := rfl
@[simp] theorem setSpec_arg (s : State) (t : List (Nat × ButtonSpec)) : (setSpec s t).arg = s.arg := rfl
@[simp] theorem setSpec_cfgLocked (s : State) (t : List (Nat × ButtonSpec)) : (setSpec s t).cfgLocked = s.cfgLocked := rfl
@[simp] theorem setSpec_fault (s : State) (t : List (Nat × ButtonSpec)) : (setSpec s t).fault = s.fault := rfl
@[simp] theorem setSpec_faultCode (s : State) (t : List (Nat × ButtonSpec)) : (setSpec s t).faultCode = s.faultCode := rfl
@[simp] theorem setSpec_faultInfo (s : State) (t : List (Nat × ButtonSpec)) : (setSpec s t).faultInfo = s.faultInfo := rfl
@[simp] theorem setSpec_faultSrc (s : State) (t : List (Nat × ButtonSpec)) : (setSpec s t).faultSrc = s.faultSrc := rfl
@[simp] theorem setSpec_faultCmd (s : State) (t : List (Nat × ButtonSpec)) : (setSpec s t).faultCmd = s.faultCmd := rfl
@[simp] theorem setSpec_script (s : State) (t : List (Nat × ButtonSpec)) : (setSpec s t).script = s.script := rfl
@[simp] theorem setSpec_replies (s : State) (t : List (Nat × ButtonSpec)) : (setSpec s t).replies = s.replies := rfl

@[simp] theorem setZones_cfg (s : State) (t : List (Nat × ConditioningZones)) : (setZones s t).cfg = s.cfg := rfl
@[simp] theorem setZones_spec (s : State) (t : List (Nat × ConditioningZones)) : (setZones s t).spec = s.spec := rfl
@[simp] theorem setZones_zones (s : State) (t : List (Nat × ConditioningZones)) : (setZones s t).zones = t := rfl
@[simp] theorem setZones_ranges (s : State) (t : List (Nat × ConditioningZones)) : (setZones s t).ranges = s.ranges := rfl
@[simp] theorem setZones_axes (s : State) (t : List (Nat × ConditioningZones)) : (setZones s t).axes = s.axes := rfl
@[simp] theorem setZones_rpt (s : State) (t : List (Nat × ConditioningZones)) : (setZones s t).rpt = s.rpt := rfl
@[simp] theorem setZones_rptV (s : State) (t : List (Nat × ConditioningZones)) : (setZones s t).rptV = s.rptV := rfl
@[simp] theorem setZones_res (s : State) (t : List (Nat × ConditioningZones)) : (setZones s t).res = s.res := rfl
@[simp] theorem setZones_arg (s : State) (t : List (Nat × ConditioningZones)) : (setZones s t).arg = s.arg := rfl
@[simp] theorem setZones_cfgLocked (s : State) (t : List (Nat × ConditioningZones)) : (setZones s t).cfgLocked = s.cfgLocked := rfl
@[simp] theorem setZones_fault (s : State) (t : List (Nat × ConditioningZones)) : (setZones s t).fault = s.fault := rfl
@[simp] theorem setZones_faultCode (s : State) (t : List (Nat × ConditioningZones)) : (setZones s t).faultCode = s.faultCode := rfl
@[simp] theorem setZones_faultInfo (s : State) (t : List (Nat × ConditioningZones)) : (setZones s t).faultInfo = s.faultInfo := rfl
@[simp] theorem setZones_faultSrc (s : State) (t : List (Nat × ConditioningZones)) : (setZones s t).faultSrc = s.faultSrc := rfl
@[simp] theorem setZones_faultCmd (s : State) (t : List (Nat × ConditioningZones)) : (setZones s t).faultCmd = s.faultCmd := rfl
@[simp] theorem setZones_script (s : State) (t : List (Nat × ConditioningZones)) : (setZones s t).script = s.script := rfl
@[simp] theorem setZones_replies (s : State) (t : List (Nat × ConditioningZones)) : (setZones s t).replies = s.replies := rfl

@[simp] theorem setRanges_cfg (s : State) (t : List (Nat × AxisRange)) : (setRanges s t).cfg = s.cfg := rfl
@[simp] theorem setRanges_spec (s : State) (t : List (Nat × AxisRange)) : (setRanges s t).spec = s.spec := rfl
@[simp] theorem setRanges_zones (s : State) (t : List (Nat × AxisRange)) : (setRanges s t).zones = s.zones := rfl
@[simp] theorem setRanges_ranges (s : State) (t : List (Nat × AxisRange)) : (setRanges s t).ranges = t := rfl
@[simp] theorem setRanges_axes (s : State) (t : List (Nat × AxisRange)) : (setRanges s t).axes = s.axes := rfl
@[simp] theorem setRanges_rpt (s : State) (t : List (Nat × AxisRange)) : (setRanges s t).rpt = s.rpt := rfl
@[simp] theorem setRanges_rptV (s : State) (t : List (Nat × AxisRange)) : (setRanges s t).rptV = s.rptV := rfl
@[simp] theorem setRanges_res (s : State) (t : List (Nat × AxisRange)) : (setRanges s t).res = s.res := rfl
@[simp] theorem setRanges_arg (s : State) (t : List (Nat × AxisRange)) : (setRanges s t).arg = s.arg := rfl
@[simp] theorem setRanges_cfgLocked (s : State) (t : List (Nat × AxisRange)) : (setRanges s t).cfgLocked = s.cfgLocked := rfl
@[simp] theorem setRanges_fault (s : State) (t : List (Nat × AxisRange)) : (setRanges s t).fault = s.fault := rfl
@[simp] theorem setRanges_faultCode (s : State) (t : List (Nat × AxisRange)) : (setRanges s t).faultCode = s.faultCode := rfl
@[simp] theorem setRanges_faultInfo (s : State) (t : List (Nat × AxisRange)) : (setRanges s t).faultInfo = s.faultInfo := rfl
@[simp] theorem setRanges_faultSrc (s : State) (t : List (Nat × AxisRange)) : (setRanges s t).faultSrc = s.faultSrc := rfl
@[simp] theorem setRanges_faultCmd (s : State) (t : List (Nat × AxisRange)) : (setRanges s t).faultCmd = s.faultCmd := rfl
@[simp] theorem setRanges_script (s : State) (t : List (Nat × AxisRange)) : (setRanges s t).script = s.script := rfl
@[simp] theorem setRanges_replies (s : State) (t : List (Nat × AxisRange)) : (setRanges s t).replies = s.replies := rfl

@[simp] theorem setAxes_cfg (s : State) (t : List (Nat × AxisDesc)) : (setAxes s t).cfg = s.cfg := rfl
@[simp] theorem setAxes_spec (s : State) (t : List (Nat × AxisDesc)) : (setAxes s t).spec = s.spec := rfl
@[simp] theorem setAxes_zones (s : State) (t : List (Nat × AxisDesc)) : (setAxes s t).zones = s.zones := rfl
@[simp] theorem setAxes_ranges (s : State) (t : List (Nat × AxisDesc)) : (setAxes s t).ranges = s.ranges := rfl
@[simp] theorem setAxes_axes (s : State) (t : List (Nat × AxisDesc)) : (setAxes s t).axes = t := rfl
@[simp] theorem setAxes_rpt (s : State) (t : List (Nat × AxisDesc)) : (setAxes s t).rpt = s.rpt := rfl
@[simp] theorem setAxes_rptV (s : State) (t : List (Nat × AxisDesc)) : (setAxes s t).rptV = s.rptV := rfl
@[simp] theorem setAxes_res (s : State) (t : List (Nat × AxisDesc)) : (setAxes s t).res = s.res := rfl
@[simp] theorem setAxes_arg (s : State) (t : List (Nat × AxisDesc)) : (setAxes s t).arg = s.arg := rfl
@[simp] theorem setAxes_cfgLocked (s : State) (t : List (Nat × AxisDesc)) : (setAxes s t).cfgLocked = s.cfgLocked := rfl
@[simp] theorem setAxes_fault (s : State) (t : List (Nat × AxisDesc)) : (setAxes s t).fault = s.fault := rfl
@[simp] theorem setAxes_faultCode (s : State) (t : List (Nat × AxisDesc)) : (setAxes s t).faultCode = s.faultCode := rfl
@[simp] theorem setAxes_faultInfo (s : State) (t : List (Nat × AxisDesc)) : (setAxes s t).faultInfo = s.faultInfo := rfl
@[simp] theorem setAxes_faultSrc (s : State) (t : List (Nat × AxisDesc)) : (setAxes s t).faultSrc = s.faultSrc := rfl
@[simp] theorem setAxes_faultCmd (s : State) (t : List (Nat × AxisDesc)) : (setAxes s t).faultCmd = s.faultCmd := rfl
@[simp] theorem setAxes_script (s : State) (t : List (Nat × AxisDesc)) : (setAxes s t).script = s.script := rfl
@[simp] theorem setAxes_replies (s : State) (t : List (Nat × AxisDesc)) : (setAxes s t).replies = s.replies := rfl

@[simp] theorem setReport_cfg (s : State) (m : List Host.Cell) : (setReport s m).cfg = s.cfg := rfl
@[simp] theorem setReport_spec (s : State) (m : List Host.Cell) : (setReport s m).spec = s.spec := rfl
@[simp] theorem setReport_zones (s : State) (m : List Host.Cell) : (setReport s m).zones = s.zones := rfl
@[simp] theorem setReport_ranges (s : State) (m : List Host.Cell) : (setReport s m).ranges = s.ranges := rfl
@[simp] theorem setReport_axes (s : State) (m : List Host.Cell) : (setReport s m).axes = s.axes := rfl
@[simp] theorem setReport_rpt (s : State) (m : List Host.Cell) : (setReport s m).rpt = m := rfl
@[simp] theorem setReport_rptV (s : State) (m : List Host.Cell) : (setReport s m).rptV = true := rfl
@[simp] theorem setReport_res (s : State) (m : List Host.Cell) : (setReport s m).res = s.res := rfl
@[simp] theorem setReport_arg (s : State) (m : List Host.Cell) : (setReport s m).arg = s.arg := rfl
@[simp] theorem setReport_cfgLocked (s : State) (m : List Host.Cell) : (setReport s m).cfgLocked = s.cfgLocked := rfl
@[simp] theorem setReport_fault (s : State) (m : List Host.Cell) : (setReport s m).fault = s.fault := rfl
@[simp] theorem setReport_faultCode (s : State) (m : List Host.Cell) : (setReport s m).faultCode = s.faultCode := rfl
@[simp] theorem setReport_faultInfo (s : State) (m : List Host.Cell) : (setReport s m).faultInfo = s.faultInfo := rfl
@[simp] theorem setReport_faultSrc (s : State) (m : List Host.Cell) : (setReport s m).faultSrc = s.faultSrc := rfl
@[simp] theorem setReport_faultCmd (s : State) (m : List Host.Cell) : (setReport s m).faultCmd = s.faultCmd := rfl
@[simp] theorem setReport_script (s : State) (m : List Host.Cell) : (setReport s m).script = s.script := rfl
@[simp] theorem setReport_replies (s : State) (m : List Host.Cell) : (setReport s m).replies = s.replies := rfl

@[simp] theorem setRes_cfg (s : State) (v : Word) : (setRes s v).cfg = s.cfg := rfl
@[simp] theorem setRes_spec (s : State) (v : Word) : (setRes s v).spec = s.spec := rfl
@[simp] theorem setRes_zones (s : State) (v : Word) : (setRes s v).zones = s.zones := rfl
@[simp] theorem setRes_ranges (s : State) (v : Word) : (setRes s v).ranges = s.ranges := rfl
@[simp] theorem setRes_axes (s : State) (v : Word) : (setRes s v).axes = s.axes := rfl
@[simp] theorem setRes_rpt (s : State) (v : Word) : (setRes s v).rpt = s.rpt := rfl
@[simp] theorem setRes_rptV (s : State) (v : Word) : (setRes s v).rptV = s.rptV := rfl
@[simp] theorem setRes_res (s : State) (v : Word) : (setRes s v).res = some v := rfl
@[simp] theorem setRes_arg (s : State) (v : Word) : (setRes s v).arg = s.arg := rfl
@[simp] theorem setRes_cfgLocked (s : State) (v : Word) : (setRes s v).cfgLocked = s.cfgLocked := rfl
@[simp] theorem setRes_fault (s : State) (v : Word) : (setRes s v).fault = s.fault := rfl
@[simp] theorem setRes_faultCode (s : State) (v : Word) : (setRes s v).faultCode = s.faultCode := rfl
@[simp] theorem setRes_faultInfo (s : State) (v : Word) : (setRes s v).faultInfo = s.faultInfo := rfl
@[simp] theorem setRes_faultSrc (s : State) (v : Word) : (setRes s v).faultSrc = s.faultSrc := rfl
@[simp] theorem setRes_faultCmd (s : State) (v : Word) : (setRes s v).faultCmd = s.faultCmd := rfl
@[simp] theorem setRes_script (s : State) (v : Word) : (setRes s v).script = s.script := rfl
@[simp] theorem setRes_replies (s : State) (v : Word) : (setRes s v).replies = s.replies := rfl

@[simp] theorem setArg_cfg (s : State) (v : Word) : (setArg s v).cfg = s.cfg := rfl
@[simp] theorem setArg_spec (s : State) (v : Word) : (setArg s v).spec = s.spec := rfl
@[simp] theorem setArg_zones (s : State) (v : Word) : (setArg s v).zones = s.zones := rfl
@[simp] theorem setArg_ranges (s : State) (v : Word) : (setArg s v).ranges = s.ranges := rfl
@[simp] theorem setArg_axes (s : State) (v : Word) : (setArg s v).axes = s.axes := rfl
@[simp] theorem setArg_rpt (s : State) (v : Word) : (setArg s v).rpt = s.rpt := rfl
@[simp] theorem setArg_rptV (s : State) (v : Word) : (setArg s v).rptV = s.rptV := rfl
@[simp] theorem setArg_res (s : State) (v : Word) : (setArg s v).res = s.res := rfl
@[simp] theorem setArg_arg (s : State) (v : Word) : (setArg s v).arg = some v := rfl
@[simp] theorem setArg_cfgLocked (s : State) (v : Word) : (setArg s v).cfgLocked = s.cfgLocked := rfl
@[simp] theorem setArg_fault (s : State) (v : Word) : (setArg s v).fault = s.fault := rfl
@[simp] theorem setArg_faultCode (s : State) (v : Word) : (setArg s v).faultCode = s.faultCode := rfl
@[simp] theorem setArg_faultInfo (s : State) (v : Word) : (setArg s v).faultInfo = s.faultInfo := rfl
@[simp] theorem setArg_faultSrc (s : State) (v : Word) : (setArg s v).faultSrc = s.faultSrc := rfl
@[simp] theorem setArg_faultCmd (s : State) (v : Word) : (setArg s v).faultCmd = s.faultCmd := rfl
@[simp] theorem setArg_script (s : State) (v : Word) : (setArg s v).script = s.script := rfl
@[simp] theorem setArg_replies (s : State) (v : Word) : (setArg s v).replies = s.replies := rfl

@[simp] theorem setLocked_cfg (s : State) : (setLocked s).cfg = s.cfg := rfl
@[simp] theorem setLocked_spec (s : State) : (setLocked s).spec = s.spec := rfl
@[simp] theorem setLocked_zones (s : State) : (setLocked s).zones = s.zones := rfl
@[simp] theorem setLocked_ranges (s : State) : (setLocked s).ranges = s.ranges := rfl
@[simp] theorem setLocked_axes (s : State) : (setLocked s).axes = s.axes := rfl
@[simp] theorem setLocked_rpt (s : State) : (setLocked s).rpt = s.rpt := rfl
@[simp] theorem setLocked_rptV (s : State) : (setLocked s).rptV = s.rptV := rfl
@[simp] theorem setLocked_res (s : State) : (setLocked s).res = s.res := rfl
@[simp] theorem setLocked_arg (s : State) : (setLocked s).arg = s.arg := rfl
@[simp] theorem setLocked_cfgLocked (s : State) : (setLocked s).cfgLocked = true := rfl
@[simp] theorem setLocked_fault (s : State) : (setLocked s).fault = s.fault := rfl
@[simp] theorem setLocked_faultCode (s : State) : (setLocked s).faultCode = s.faultCode := rfl
@[simp] theorem setLocked_faultInfo (s : State) : (setLocked s).faultInfo = s.faultInfo := rfl
@[simp] theorem setLocked_faultSrc (s : State) : (setLocked s).faultSrc = s.faultSrc := rfl
@[simp] theorem setLocked_faultCmd (s : State) : (setLocked s).faultCmd = s.faultCmd := rfl
@[simp] theorem setLocked_script (s : State) : (setLocked s).script = s.script := rfl
@[simp] theorem setLocked_replies (s : State) : (setLocked s).replies = s.replies := rfl

@[simp] theorem setScript_cfg (s : State) (ts : List Txn) : (setScript s ts).cfg = s.cfg := rfl
@[simp] theorem setScript_spec (s : State) (ts : List Txn) : (setScript s ts).spec = s.spec := rfl
@[simp] theorem setScript_zones (s : State) (ts : List Txn) : (setScript s ts).zones = s.zones := rfl
@[simp] theorem setScript_ranges (s : State) (ts : List Txn) : (setScript s ts).ranges = s.ranges := rfl
@[simp] theorem setScript_axes (s : State) (ts : List Txn) : (setScript s ts).axes = s.axes := rfl
@[simp] theorem setScript_rpt (s : State) (ts : List Txn) : (setScript s ts).rpt = s.rpt := rfl
@[simp] theorem setScript_rptV (s : State) (ts : List Txn) : (setScript s ts).rptV = s.rptV := rfl
@[simp] theorem setScript_res (s : State) (ts : List Txn) : (setScript s ts).res = s.res := rfl
@[simp] theorem setScript_arg (s : State) (ts : List Txn) : (setScript s ts).arg = s.arg := rfl
@[simp] theorem setScript_cfgLocked (s : State) (ts : List Txn) : (setScript s ts).cfgLocked = s.cfgLocked := rfl
@[simp] theorem setScript_fault (s : State) (ts : List Txn) : (setScript s ts).fault = s.fault := rfl
@[simp] theorem setScript_faultCode (s : State) (ts : List Txn) : (setScript s ts).faultCode = s.faultCode := rfl
@[simp] theorem setScript_faultInfo (s : State) (ts : List Txn) : (setScript s ts).faultInfo = s.faultInfo := rfl
@[simp] theorem setScript_faultSrc (s : State) (ts : List Txn) : (setScript s ts).faultSrc = s.faultSrc := rfl
@[simp] theorem setScript_faultCmd (s : State) (ts : List Txn) : (setScript s ts).faultCmd = s.faultCmd := rfl
@[simp] theorem setScript_script (s : State) (ts : List Txn) : (setScript s ts).script = ts := rfl
@[simp] theorem setScript_replies (s : State) (ts : List Txn) : (setScript s ts).replies = s.replies := rfl

@[simp] theorem pushReply_cfg (s : State) (r : Reply) : (pushReply s r).cfg = s.cfg := rfl
@[simp] theorem pushReply_spec (s : State) (r : Reply) : (pushReply s r).spec = s.spec := rfl
@[simp] theorem pushReply_zones (s : State) (r : Reply) : (pushReply s r).zones = s.zones := rfl
@[simp] theorem pushReply_ranges (s : State) (r : Reply) : (pushReply s r).ranges = s.ranges := rfl
@[simp] theorem pushReply_axes (s : State) (r : Reply) : (pushReply s r).axes = s.axes := rfl
@[simp] theorem pushReply_rpt (s : State) (r : Reply) : (pushReply s r).rpt = s.rpt := rfl
@[simp] theorem pushReply_rptV (s : State) (r : Reply) : (pushReply s r).rptV = s.rptV := rfl
@[simp] theorem pushReply_res (s : State) (r : Reply) : (pushReply s r).res = s.res := rfl
@[simp] theorem pushReply_arg (s : State) (r : Reply) : (pushReply s r).arg = s.arg := rfl
@[simp] theorem pushReply_cfgLocked (s : State) (r : Reply) : (pushReply s r).cfgLocked = s.cfgLocked := rfl
@[simp] theorem pushReply_fault (s : State) (r : Reply) : (pushReply s r).fault = s.fault := rfl
@[simp] theorem pushReply_faultCode (s : State) (r : Reply) : (pushReply s r).faultCode = s.faultCode := rfl
@[simp] theorem pushReply_faultInfo (s : State) (r : Reply) : (pushReply s r).faultInfo = s.faultInfo := rfl
@[simp] theorem pushReply_faultSrc (s : State) (r : Reply) : (pushReply s r).faultSrc = s.faultSrc := rfl
@[simp] theorem pushReply_faultCmd (s : State) (r : Reply) : (pushReply s r).faultCmd = s.faultCmd := rfl
@[simp] theorem pushReply_script (s : State) (r : Reply) : (pushReply s r).script = s.script := rfl
@[simp] theorem pushReply_replies (s : State) (r : Reply) : (pushReply s r).replies = s.replies ++ [r] := rfl

@[simp] theorem setRecord_cfg (s : State) (c : Byte) (n : Half) (b : Bool) (w : Word) : (setRecord s c n b w).cfg = s.cfg := rfl
@[simp] theorem setRecord_spec (s : State) (c : Byte) (n : Half) (b : Bool) (w : Word) : (setRecord s c n b w).spec = s.spec := rfl
@[simp] theorem setRecord_zones (s : State) (c : Byte) (n : Half) (b : Bool) (w : Word) : (setRecord s c n b w).zones = s.zones := rfl
@[simp] theorem setRecord_ranges (s : State) (c : Byte) (n : Half) (b : Bool) (w : Word) : (setRecord s c n b w).ranges = s.ranges := rfl
@[simp] theorem setRecord_axes (s : State) (c : Byte) (n : Half) (b : Bool) (w : Word) : (setRecord s c n b w).axes = s.axes := rfl
@[simp] theorem setRecord_rpt (s : State) (c : Byte) (n : Half) (b : Bool) (w : Word) : (setRecord s c n b w).rpt = s.rpt := rfl
@[simp] theorem setRecord_rptV (s : State) (c : Byte) (n : Half) (b : Bool) (w : Word) : (setRecord s c n b w).rptV = s.rptV := rfl
@[simp] theorem setRecord_res (s : State) (c : Byte) (n : Half) (b : Bool) (w : Word) : (setRecord s c n b w).res = s.res := rfl
@[simp] theorem setRecord_arg (s : State) (c : Byte) (n : Half) (b : Bool) (w : Word) : (setRecord s c n b w).arg = s.arg := rfl
@[simp] theorem setRecord_cfgLocked (s : State) (c : Byte) (n : Half) (b : Bool) (w : Word) : (setRecord s c n b w).cfgLocked = s.cfgLocked := rfl
@[simp] theorem setRecord_fault (s : State) (c : Byte) (n : Half) (b : Bool) (w : Word) : (setRecord s c n b w).fault = true := rfl
@[simp] theorem setRecord_faultCode (s : State) (c : Byte) (n : Half) (b : Bool) (w : Word) : (setRecord s c n b w).faultCode = c := rfl
@[simp] theorem setRecord_faultInfo (s : State) (c : Byte) (n : Half) (b : Bool) (w : Word) : (setRecord s c n b w).faultInfo = n := rfl
@[simp] theorem setRecord_faultSrc (s : State) (c : Byte) (n : Half) (b : Bool) (w : Word) : (setRecord s c n b w).faultSrc = b := rfl
@[simp] theorem setRecord_faultCmd (s : State) (c : Byte) (n : Half) (b : Bool) (w : Word) : (setRecord s c n b w).faultCmd = w := rfl
@[simp] theorem setRecord_script (s : State) (c : Byte) (n : Half) (b : Bool) (w : Word) : (setRecord s c n b w).script = s.script := rfl
@[simp] theorem setRecord_replies (s : State) (c : Byte) (n : Half) (b : Bool) (w : Word) : (setRecord s c n b w).replies = s.replies := rfl

@[simp] theorem resetBlock_cfg (s : State) : (resetBlock s).cfg = s.cfg := rfl
@[simp] theorem resetBlock_spec (s : State) : (resetBlock s).spec = [] := rfl
@[simp] theorem resetBlock_zones (s : State) : (resetBlock s).zones = [] := rfl
@[simp] theorem resetBlock_ranges (s : State) : (resetBlock s).ranges = [] := rfl
@[simp] theorem resetBlock_axes (s : State) : (resetBlock s).axes = [] := rfl
@[simp] theorem resetBlock_rpt (s : State) : (resetBlock s).rpt = [] := rfl
@[simp] theorem resetBlock_rptV (s : State) : (resetBlock s).rptV = false := rfl
@[simp] theorem resetBlock_res (s : State) : (resetBlock s).res = none := rfl
@[simp] theorem resetBlock_arg (s : State) : (resetBlock s).arg = none := rfl
@[simp] theorem resetBlock_cfgLocked (s : State) : (resetBlock s).cfgLocked = false := rfl
@[simp] theorem resetBlock_fault (s : State) : (resetBlock s).fault = false := rfl
@[simp] theorem resetBlock_faultCode (s : State) : (resetBlock s).faultCode = 0 := rfl
@[simp] theorem resetBlock_faultInfo (s : State) : (resetBlock s).faultInfo = 0 := rfl
@[simp] theorem resetBlock_faultSrc (s : State) : (resetBlock s).faultSrc = false := rfl
@[simp] theorem resetBlock_faultCmd (s : State) : (resetBlock s).faultCmd = 0 := rfl
@[simp] theorem resetBlock_script (s : State) : (resetBlock s).script = s.script := rfl
@[simp] theorem resetBlock_replies (s : State) : (resetBlock s).replies = s.replies := rfl

end Sys2Proof.Machine
end

