-- ==== Sys2Proof/Laws/Ops.lean ====
section
/-! SUPPORT. What each shared operation can do, said once. -/

namespace Sys2Proof.Machine

/-! A row of checks. -/

@[simp] theorem bind_ok {α β : Type} (a : α) (f : α → Except Stop β) : (Except.ok a >>= f) = f a := rfl

@[simp] theorem bind_error {α β : Type} (e : Stop) (f : α → Except Stop β) :
    ((Except.error e : Except Stop α) >>= f) = Except.error e := rfl

@[simp] theorem pure_ok {α : Type} (a : α) : (pure a : Except Stop α) = .ok a := rfl

/-- A bind completes exactly when its first part does and then its second. -/
theorem bind_eq_ok {α β : Type} {x : Except Stop α} {f : α → Except Stop β} {b : β} :
    (x >>= f) = .ok b ↔ ∃ a, x = .ok a ∧ f a = .ok b := by
  cases x <;> simp

/-- A bind stops in its first part, or after it in its second. -/
theorem bind_eq_error {α β : Type} {x : Except Stop α} {f : α → Except Stop β} {e : Stop} :
    (x >>= f) = .error e ↔ x = .error e ∨ ∃ a, x = .ok a ∧ f a = .error e := by
  cases x <;> simp

@[simp] theorem require_true (e : FaultCode) (n : Nat) : require true e n = .ok () := rfl

@[simp] theorem require_false (e : FaultCode) (n : Nat) : require false e n = .error (.raises e n) := rfl

theorem require_eq_ok {c : Bool} {e : FaultCode} {n : Nat} {u : Unit} : require c e n = .ok u ↔ c = true := by
  cases c <;> simp [require]

theorem require_eq_error {c : Bool} {e : FaultCode} {n : Nat} {x : Stop} :
    require c e n = .error x ↔ c = false ∧ x = .raises e n := by
  cases c <;> simp [require, eq_comm]

@[simp] theorem requireEntry_some {α : Type} (a : α) (e : FaultCode) (n : Nat) :
    requireEntry (some a) e n = .ok a := rfl

@[simp] theorem requireEntry_none {α : Type} (e : FaultCode) (n : Nat) :
    requireEntry (none : Option α) e n = .error (.raises e n) := rfl

theorem requireEntry_eq_ok {α : Type} {x : Option α} {e : FaultCode} {n : Nat} {a : α} :
    requireEntry x e n = .ok a ↔ x = some a := by
  cases x <;> simp [requireEntry]

theorem memRead_some {s : State} {off : Nat} {b : Byte} (h : reportByte s.rpt off = some b) :
    memRead s off = .ok b := by
  simp [memRead, h]

theorem memRead_eq_ok {s : State} {off : Nat} {b : Byte} : memRead s off = .ok b ↔ reportByte s.rpt off = some b := by
  unfold memRead
  split <;> simp_all

/-! Each check passes exactly when its condition holds. -/

theorem checkSpecIndex_eq_ok {s : State} {i : Nat} {e : ButtonSpec} :
    checkSpecIndex s i = .ok e ↔ specEntry s i = some e := requireEntry_eq_ok

theorem checkZonesIndex_eq_ok {s : State} {z : Nat} {c : ConditioningZones} :
    checkZonesIndex s z = .ok c ↔ zonesEntry s z = some c := requireEntry_eq_ok

theorem checkRangeIndex_eq_ok {s : State} {r : Nat} {x : AxisRange} :
    checkRangeIndex s r = .ok x ↔ rangeEntry s r = some x := requireEntry_eq_ok

theorem checkReport_eq_ok {s : State} {u : Unit} : checkReport s = .ok u ↔ s.rptV = true := require_eq_ok

theorem checkSpecLayout_eq_ok {s : State} {i : Nat} {e : ButtonSpec} {u : Unit} :
    checkSpecLayout s i e = .ok u ↔ e.mask ≠ 0 ∧ e.off.toNat < s.cfg.reportLen := by
  simp [checkSpecLayout, bind_eq_ok, require_eq_ok]

theorem checkDistinct_eq_ok {lo : Nat} {l h : ButtonSpec} {u : Unit} :
    checkDistinct lo l h = .ok u ↔ l.off ≠ h.off := by
  simp [checkDistinct, require_eq_ok]

theorem checkZonesPair_eq_ok {z : Nat} {c : ConditioningZones} {u : Unit} :
    checkZonesPair z c = .ok u ↔ c.dz.toNat < c.mz.toNat := by
  simp [checkZonesPair, require_eq_ok]

theorem checkZonesFit_eq_ok {z : Nat} {c : ConditioningZones} {r : AxisRange} {u : Unit} :
    checkZonesFit z c r = .ok u ↔ c.mz.toNat < max r.min.toInt.natAbs r.max.toInt.natAbs := by
  simp [checkZonesFit, require_eq_ok]

theorem checkS16_eq_ok {v : Int} {src : Src} {u : Unit} :
    checkS16 v src = .ok u ↔ -32768 ≤ v ∧ v ≤ 32767 := by
  simp [checkS16, require_eq_ok]

theorem checkRange_eq_ok {r : Nat} {x : AxisRange} {u : Unit} :
    checkRange r x = .ok u ↔ x.min.toInt < x.max.toInt := by
  simp [checkRange, require_eq_ok]

/-- The operand is the selected register's value. -/
theorem operand_eq_ok {s : State} {src : Src} {v : Int} :
    operand s src = .ok v ↔ ∃ w, (match src with | .res => s.res | .arg => s.arg) = some w ∧ w.toInt = v := by
  cases src <;> simp [operand, bind_eq_ok, requireEntry_eq_ok]

theorem operand_res {s : State} {v : Word} (h : s.res = some v) : operand s .res = .ok v.toInt := by
  simp [operand, h]

theorem operand_arg {s : State} {v : Word} (h : s.arg = some v) : operand s .arg = .ok v.toInt := by
  simp [operand, h]

/-! The rows of checks that commands share pass exactly when every condition holds. -/

theorem sShort_eq_ok {s : State} {l h : ButtonSpec} {v : Int} :
    sShort s l h = .ok v ↔ ∃ bh bl, reportByte s.rpt h.off.toNat = some bh ∧ reportByte s.rpt l.off.toNat = some bl ∧
      signedShort (bh &&& h.mask) (bl &&& l.mask) = v := by
  simp [sShort, bind_eq_ok, memRead_eq_ok]

theorem maskedByte_eq_ok {s : State} {i : Nat} {m : Byte} :
    maskedByte s i = .ok m ↔ ∃ e b, specEntry s i = some e ∧ s.rptV = true ∧ e.mask ≠ 0 ∧
      e.off.toNat < s.cfg.reportLen ∧ reportByte s.rpt e.off.toNat = some b ∧ m = b &&& e.mask := by
  simp only [maskedByte, bind_eq_ok, checkSpecIndex_eq_ok, checkReport_eq_ok, checkSpecLayout_eq_ok, memRead_eq_ok,
    pure_ok, Except.ok.injEq]
  constructor
  · rintro ⟨e, he, _, hr, _, ⟨hm, ho⟩, b, hb, rfl⟩
    exact ⟨e, b, he, hr, hm, ho, hb, rfl⟩
  · rintro ⟨e, b, he, hr, hm, ho, hb, rfl⟩
    exact ⟨e, he, (), hr, (), ⟨hm, ho⟩, b, hb, rfl⟩

theorem conditioned_eq_ok {s : State} {src : Src} {z rs : Nat} {v : Int} {c : ConditioningZones} {r : AxisRange} :
    conditioned s src z rs = .ok (v, c, r) ↔ zonesEntry s z = some c ∧ rangeEntry s rs = some r ∧
      operand s src = .ok v ∧ r.min.toInt < r.max.toInt ∧ c.dz.toNat < c.mz.toNat ∧
      c.mz.toNat < max r.min.toInt.natAbs r.max.toInt.natAbs ∧ -32768 ≤ v ∧ v ≤ 32767 := by
  simp only [conditioned, bind_eq_ok, checkZonesIndex_eq_ok, checkRangeIndex_eq_ok, checkRange_eq_ok,
    checkZonesPair_eq_ok, checkZonesFit_eq_ok, checkS16_eq_ok, pure_ok, Except.ok.injEq, Prod.mk.injEq]
  constructor
  · rintro ⟨c', hc, r', hr, v', hv, _, h1, _, h2, _, h3, _, h4, rfl, rfl, rfl⟩
    exact ⟨hc, hr, hv, h1, h2, h3, h4⟩
  · rintro ⟨hc, hr, hv, h1, h2, h3, h4⟩
    exact ⟨c, hc, r, hr, v, hv, (), h1, (), h2, (), h3, (), h4, rfl, rfl, rfl⟩

/-! The fault entry and the end of a command. -/

theorem raise_clear {s : State} (h : s.fault = false) (e : FaultCode) (n : Nat) (src : Bool) (cmd : Word) :
    raise s e n src cmd = setRecord s (codeOf e) (BitVec.ofNat 16 n) src cmd := by
  simp [raise, h]

theorem raise_faulted {s : State} (h : s.fault = true) (e : FaultCode) (n : Nat) (src : Bool) (cmd : Word) :
    raise s e n src cmd = s := by
  simp [raise, h]

@[simp] theorem finish_ok (cmd : Word) (s : State) (v : Word) : finish cmd s (.ok v) = .next (setRes s v) := rfl

@[simp] theorem finish_raises (cmd : Word) (s : State) (e : FaultCode) (n : Nat) :
    finish cmd s (.error (.raises e n)) = .next (raise s e n false cmd) := rfl

@[simp] theorem finish_absent (cmd : Word) (s : State) (off : Nat) :
    finish cmd s (.error (.absent off)) = .fault (.reportByteAbsent off) := rfl

/-- Everything the end of a command can answer as a next state. -/
theorem finish_next {cmd : Word} {s u : State} {x : Except Stop Word} (h : finish cmd s x = .next u) :
    (∃ v, x = .ok v ∧ u = setRes s v) ∨ (∃ e n, x = .error (.raises e n) ∧ u = raise s e n false cmd) := by
  match x, h with
  | .ok v, h => exact .inl ⟨v, rfl, by simpa [eq_comm] using h⟩
  | .error (.raises e n), h => exact .inr ⟨e, n, rfl, by simpa [eq_comm] using h⟩
  | .error (.absent off), h => simp at h

/-- A command that ends in a next state without a fault has passed every check. -/
theorem finish_clear {cmd : Word} {s u : State} {x : Except Stop Word} (h : finish cmd s x = .next u)
    (hs : s.fault = false) (hu : u.fault = false) : ∃ v, x = .ok v ∧ u = setRes s v := by
  rcases finish_next h with h | ⟨e, n, _, rfl⟩
  · exact h
  · simp [raise_clear hs] at hu

/-! The host's transactions. -/

theorem unlessFaulted_clear {s t : State} (h : s.fault = false) : unlessFaulted s t = t := by
  simp [unlessFaulted, h]

theorem unlessFaulted_faulted {s t : State} (h : s.fault = true) : unlessFaulted s t = s := by
  simp [unlessFaulted, h]

theorem issue_faulted (run : Instr → State → Host.Outcome State Fault Refusal) (w : Word) {s : State}
    (h : s.fault = true) : issue run w s = .next s := by
  simp [issue, h]

theorem issue_decoded (run : Instr → State → Host.Outcome State Fault Refusal) {w : Word} {s : State} {i : Instr}
    (h : s.fault = false) (hd : decode w = .ok i) : issue run w s = run i s := by
  simp [issue, h, hd]

theorem issue_illegal (run : Instr → State → Host.Outcome State Fault Refusal) {w : Word} {s : State} {r : Reject}
    (h : s.fault = false) (hd : decode w = .error r) :
    issue run w s = .next (setRecord s (codeOf .illegalCmd) 0 false w) := by
  simp [issue, h, hd, raise]

end Sys2Proof.Machine
end

