-- ==== Sys2Proof/Laws/PerInstr.lean ====
section
/-! SUPPORT. Per-instruction family EncodedRow: the word of a well-formed command matches its own row of the opcode
map (30_encoding.md R78). -/

namespace Sys2Proof.Laws.EncodedRow

/-- The row of the opcode map that a command belongs to. -/
def rowOf : Instr → OpRow
  | .getb _ => rowGETB
  | .getu8 _ => rowGETU8
  | .gets16 _ _ => rowGETS16
  | .dzf _ _ => rowDZF
  | .satc _ _ _ => rowSATC
  | .cond _ _ _ => rowCOND
  | .xlat _ _ _ => rowXLAT
  | .axis _ _ => rowAXIS

def Statement (i : Instr) : Prop := i.wellFormed = true → rowHits (rowOf i) (encode i) = true

theorem getb (s : Nat) : Statement (.getb s) := by
  intro h
  simp only [Instr.wellFormed, decide_eq_true_eq] at h
  refine (rowHits_getb_iff _).2 ?_
  simp only [encode, wordS1, field, BitVec.toNat_ofNat]
  omega

theorem getu8 (s : Nat) : Statement (.getu8 s) := by
  intro h
  simp only [Instr.wellFormed, decide_eq_true_eq] at h
  refine (rowHits_getu8_iff _).2 ?_
  simp only [encode, wordS1, field, BitVec.toNat_ofNat]
  omega

theorem gets16 (lo hi : Nat) : Statement (.gets16 lo hi) := by
  intro h
  simp only [Instr.wellFormed, Bool.and_eq_true, decide_eq_true_eq] at h
  refine (rowHits_gets16_iff _).2 ?_
  simp only [encode, wordS2, field, BitVec.toNat_ofNat]
  omega

theorem dzf (src : Src) (z : Nat) : Statement (.dzf src z) := by
  intro h
  simp only [Instr.wellFormed, decide_eq_true_eq] at h
  refine (rowHits_dzf_iff _).2 ?_
  cases src <;> simp only [encode, wordV, srcBit, field, BitVec.toNat_ofNat] <;> omega

theorem satc (src : Src) (z rs : Nat) : Statement (.satc src z rs) := by
  intro h
  simp only [Instr.wellFormed, Bool.and_eq_true, decide_eq_true_eq] at h
  refine (rowHits_satc_iff _).2 ?_
  cases src <;> simp only [encode, wordV, srcBit, field, BitVec.toNat_ofNat] <;> omega

theorem cond (src : Src) (z rs : Nat) : Statement (.cond src z rs) := by
  intro h
  simp only [Instr.wellFormed, Bool.and_eq_true, decide_eq_true_eq] at h
  refine (rowHits_cond_iff _).2 ?_
  cases src <;> simp only [encode, wordV, srcBit, field, BitVec.toNat_ofNat] <;> omega

theorem xlat (src : Src) (rs rt : Nat) : Statement (.xlat src rs rt) := by
  intro h
  simp only [Instr.wellFormed, Bool.and_eq_true, decide_eq_true_eq] at h
  refine (rowHits_xlat_iff _).2 ?_
  cases src <;> simp only [encode, wordV, srcBit, field, BitVec.toNat_ofNat] <;> omega

theorem axis (a rt : Nat) : Statement (.axis a rt) := by
  intro h
  simp only [Instr.wellFormed, Bool.and_eq_true, decide_eq_true_eq] at h
  refine (rowHits_axis_iff _).2 ?_
  simp only [encode, wordA, field, BitVec.toNat_ofNat]
  omega

end Sys2Proof.Laws.EncodedRow
end

