-- ==== Sys2Proof/Laws/Step.lean ====
section
/-! SUPPORT. Everything a command and a transaction can answer as a next state, said once. -/

namespace Sys2Proof.Machine

/-- Every meaning is a row of checks ended by `finish`, with the command's own word. -/
theorem exec_eq_finish (i : Instr) (s : State) : ∃ x, exec i s = finish (encode i) s x := by
  cases i <;> exact ⟨_, rfl⟩

/-- A command that answers a next state has written `RES`, or raised. -/
theorem exec_next {i : Instr} {s u : State} (h : exec i s = .next u) :
    (∃ v, u = setRes s v) ∨ ∃ e n, u = raise s e n false (encode i) := by
  obtain ⟨x, hx⟩ := exec_eq_finish i s
  rcases finish_next (hx ▸ h) with ⟨v, _, hu⟩ | ⟨e, n, _, hu⟩
  · exact .inl ⟨v, hu⟩
  · exact .inr ⟨e, n, hu⟩

theorem step_idle {s : State} (h : s.script = []) : step s = .next s := by
  simp [step, performNext, h]

theorem step_cons {s : State} {t : Txn} {ts : List Txn} (h : s.script = t :: ts) :
    step s = perform exec t (setScript s ts) := by
  simp [step, performNext, h]

/-- What a transaction has written when it wrote one of the block's registers. -/
inductive Wrote (s u : State) : Txn → Prop where
  | spec (i : Byte) (off : Half) (mask : Byte) (lock : s.cfgLocked = false) (h : i.toNat < s.cfg.nspec)
      (hu : u = setSpec s (tablePut s.spec i.toNat ⟨off, mask⟩)) : Wrote s u (.writeSpec i off mask)
  | zones (z : BitVec 4) (dz mz : Half) (lock : s.cfgLocked = false) (h : z.toNat < s.cfg.nzones)
      (hu : u = setZones s (tablePut s.zones z.toNat ⟨dz, mz⟩)) : Wrote s u (.writeZones z dz mz)
  | axis (a : BitVec 4) (lo hi : Byte) (cond : Bool) (z : BitVec 4) (lock : s.cfgLocked = false) (h : a.toNat < naxis)
      (hu : u = setAxes s (tablePut s.axes a.toNat ⟨lo, hi, cond, z⟩)) : Wrote s u (.writeAxis a lo hi cond z)
  | range (r : BitVec 4) (min max : Word) (h0 : r.toNat ≠ 0) (h : r.toNat < s.cfg.nrange)
      (hu : u = setRanges s (tablePut s.ranges r.toNat ⟨min, max⟩)) : Wrote s u (.writeRange r min max)
  | lock (hu : u = setLocked s) : Wrote s u .lock
  | arg (v : Word) (hu : u = setArg s v) : Wrote s u (.writeArg v)
  | report (bytes : List Byte) (h : bytes.length = s.cfg.reportLen) (hu : u = setReport s (cellsFrom 0 bytes)) :
      Wrote s u (.loadReport bytes)
  | result (w v : Word) (hu : u = setRes s v) : Wrote s u (.issue w)

/-- The transactions that have no check, and so raise nothing (60_exceptions.md R233). -/
def raisesNothing : Txn → Bool
  | .lock => true
  | .reset => true
  | .writeArg _ => true
  | .loadReport _ => true
  | .readResult => true
  | .readStatus => true
  | .writeSpec _ _ _ => false
  | .writeZones _ _ _ => false
  | .writeAxis _ _ _ _ _ => false
  | .writeRange _ _ _ => false
  | .issue _ => false

/-- Everything a transaction can answer as a next state: nothing changed while faulted, a fault recorded, a write, RESET,
or a reply. -/
inductive Performed (s u : State) (t : Txn) : Prop where
  | ignored (hf : s.fault = true) (hu : u = s)
  | faulted (hf : s.fault = false) (ht : raisesNothing t = false) (e : FaultCode) (n : Nat) (src : Bool) (cmd : Word) (h : src = true → cmd = 0)
      (hu : u = setRecord s (codeOf e) (BitVec.ofNat 16 n) src cmd)
  | wrote (hf : s.fault = false) (h : Wrote s u t)
  | reset (ht : t = .reset) (hu : u = resetBlock s)
  | readResult (ht : t = .readResult) (hu : u = readResult s)
  | readStatus (ht : t = .readStatus) (hu : u = readStatus s)

theorem Performed.raiseHost {s u : State} {t : Txn} (hf : s.fault = false) (ht : raisesNothing t = false) {e : FaultCode}
    {n : Nat} (h : u = raiseHost s e n) : Performed s u t :=
  .faulted hf ht e n true 0 (fun _ => rfl) (h.trans (raise_clear hf _ _ _ _))

theorem perform_next {t : Txn} {s u : State} (h : perform exec t s = .next u) : Performed s u t := by
  cases hf : s.fault with
  | true =>
    cases t with
    | reset => exact .reset rfl (by simpa [perform, eq_comm] using h)
    | readResult => exact .readResult rfl (by simpa [perform, eq_comm] using h)
    | readStatus => exact .readStatus rfl (by simpa [perform, eq_comm] using h)
    | loadReport b =>
      simp only [perform] at h
      split at h
      · exact .ignored hf (by simpa [loadReport, unlessFaulted, hf, eq_comm] using h)
      · simp at h
    | issue w => exact .ignored hf (by simpa [perform, issue, hf, eq_comm] using h)
    | writeSpec _ _ _ => exact .ignored hf (by simpa [perform, writeSpec, unlessFaulted, hf, eq_comm] using h)
    | writeZones _ _ _ => exact .ignored hf (by simpa [perform, writeZones, unlessFaulted, hf, eq_comm] using h)
    | writeAxis _ _ _ _ _ => exact .ignored hf (by simpa [perform, writeAxis, unlessFaulted, hf, eq_comm] using h)
    | writeRange _ _ _ => exact .ignored hf (by simpa [perform, writeRange, unlessFaulted, hf, eq_comm] using h)
    | lock => exact .ignored hf (by simpa [perform, lock, unlessFaulted, hf, eq_comm] using h)
    | writeArg _ => exact .ignored hf (by simpa [perform, writeArg, unlessFaulted, hf, eq_comm] using h)
  | false =>
    cases t with
    | reset => exact .reset rfl (by simpa [perform, eq_comm] using h)
    | readResult => exact .readResult rfl (by simpa [perform, eq_comm] using h)
    | readStatus => exact .readStatus rfl (by simpa [perform, eq_comm] using h)
    | loadReport b =>
      simp only [perform] at h
      split at h
      · rename_i hb
        exact .wrote hf (.report b (by simpa [Txn.wellTyped] using hb)
          (by simpa [loadReport, unlessFaulted, hf, eq_comm] using h))
      · simp at h
    | issue w =>
      cases hd : decode w with
      | ok i =>
        rcases exec_next ((issue_decoded exec hf hd).symm.trans h) with ⟨v, hu⟩ | ⟨e, n, hu⟩
        · exact .wrote hf (.result w v hu)
        · exact .faulted hf rfl e n false (encode i) (by simp) (hu.trans (raise_clear hf _ _ _ _))
      | error r =>
        have hu := (issue_illegal exec hf hd).symm.trans h
        exact .faulted hf rfl .illegalCmd 0 false w (by simp) (by simpa [eq_comm] using hu)
    | writeSpec i off mask =>
      have hu : u = writeSpec i off mask s := by simpa [perform, eq_comm] using h
      rw [writeSpec, unlessFaulted_clear hf] at hu
      split at hu
      · exact .raiseHost hf rfl hu
      · split at hu
        · exact .raiseHost hf rfl hu
        · exact .wrote hf (.spec i off mask (by simp_all) (by omega) hu)
    | writeZones z dz mz =>
      have hu : u = writeZones z dz mz s := by simpa [perform, eq_comm] using h
      rw [writeZones, unlessFaulted_clear hf] at hu
      split at hu
      · exact .raiseHost hf rfl hu
      · split at hu
        · exact .raiseHost hf rfl hu
        · exact .wrote hf (.zones z dz mz (by simp_all) (by omega) hu)
    | writeAxis a lo hi c z =>
      have hu : u = writeAxis a lo hi c z s := by simpa [perform, eq_comm] using h
      rw [writeAxis, unlessFaulted_clear hf] at hu
      split at hu
      · exact .raiseHost hf rfl hu
      · split at hu
        · exact .raiseHost hf rfl hu
        · exact .wrote hf (.axis a lo hi c z (by simp_all) (by omega) hu)
    | writeRange r min max =>
      have hu : u = writeRange r min max s := by simpa [perform, eq_comm] using h
      rw [writeRange, unlessFaulted_clear hf] at hu
      split at hu
      · exact .raiseHost hf rfl hu
      · exact .wrote hf (.range r min max (by omega) (by omega) hu)
    | lock => exact .wrote hf (.lock (by simpa [perform, lock, unlessFaulted, hf, eq_comm] using h))
    | writeArg v => exact .wrote hf (.arg v (by simpa [perform, writeArg, unlessFaulted, hf, eq_comm] using h))

end Sys2Proof.Machine
end

