-- ==== Sys2Proof/Laws/Table.lean ====
section
/-! SUPPORT. The tables and the report space: a read after a write, the canonical form, and the cells of a loaded
report. -/

namespace Sys2Proof.Machine

variable {α : Type}

theorem tableGet_put_same (t : List (Nat × α)) (i : Nat) (a : α) : tableGet (tablePut t i a) i = some a := by
  induction t with
  | nil => simp [tablePut, tableGet]
  | cons p t ih =>
    obtain ⟨k, v⟩ := p
    unfold tablePut
    split
    · simp [tableGet]
    · split
      · simp [tableGet]
      · simp_all [tableGet]

theorem tableGet_put_other (t : List (Nat × α)) {i j : Nat} (a : α) (h : j ≠ i) :
    tableGet (tablePut t i a) j = tableGet t j := by
  induction t with
  | nil => simp [tablePut, tableGet, h]
  | cons p t ih =>
    obtain ⟨k, v⟩ := p
    unfold tablePut
    split
    · simp [tableGet, h]
    · split
      · simp_all [tableGet]
      · simp [tableGet, ih]

theorem tablePut_keys (t : List (Nat × α)) (i : Nat) (a : α) {e : Nat × α} (h : e ∈ tablePut t i a) :
    e.1 = i ∨ e ∈ t := by
  induction t with
  | nil => simp_all [tablePut]
  | cons p t ih =>
    obtain ⟨k, v⟩ := p
    unfold tablePut at h
    split at h
    · simp at h; rcases h with rfl | h <;> simp_all
    · split at h
      · simp at h; rcases h with rfl | h <;> simp_all
      · simp at h
        rcases h with rfl | h
        · simp
        · rcases ih h with h | h <;> simp_all

theorem rising_cons (p : Nat × α) (t : List (Nat × α)) :
    Rising (p :: t) ↔ (∀ e ∈ t, p.1 < e.1) ∧ Rising t := by
  simp only [Rising, List.map_cons, List.pairwise_cons, List.mem_map]
  constructor
  · rintro ⟨h, r⟩
    exact ⟨fun e he => h _ ⟨e, he, rfl⟩, r⟩
  · rintro ⟨h, r⟩
    refine ⟨?_, r⟩
    rintro _ ⟨e, he, rfl⟩
    exact h e he

theorem rising_put (t : List (Nat × α)) (i : Nat) (a : α) (h : Rising t) : Rising (tablePut t i a) := by
  induction t with
  | nil => simp [tablePut, Rising]
  | cons p t ih =>
    obtain ⟨k, v⟩ := p
    have h' := (rising_cons _ _).1 h
    unfold tablePut
    split
    · rename_i hik
      refine (rising_cons _ _).2 ⟨?_, h⟩
      intro e he
      rcases List.mem_cons.1 he with rfl | he
      · exact hik
      · exact Nat.lt_trans hik (h'.1 e he)
    · split
      · rename_i hik
        subst hik
        exact (rising_cons _ _).2 h'
      · rename_i h1 h2
        refine (rising_cons _ _).2 ⟨?_, ih h'.2⟩
        intro e he
        rcases tablePut_keys t i a he with he | he
        · simp only [he]; omega
        · exact h'.1 e he

theorem tableGet_none_of_lt (t : List (Nat × α)) (i : Nat) (h : ∀ e ∈ t, i < e.1) : tableGet t i = none := by
  induction t with
  | nil => rfl
  | cons p t ih =>
    have hp := h p (by simp)
    simp only [tableGet]
    rw [if_neg (by omega)]
    exact ih fun e he => h e (by simp [he])

theorem tableGet_mem (t : List (Nat × α)) {i : Nat} {a : α} (h : tableGet t i = some a) : (i, a) ∈ t := by
  induction t with
  | nil => simp [tableGet] at h
  | cons p t ih =>
    obtain ⟨k, v⟩ := p
    simp only [tableGet] at h
    split at h
    · simp_all
    · exact List.mem_cons_of_mem _ (ih h)

/-- An index that a table lists has a value. -/
theorem tableGet_of_key (t : List (Nat × α)) {i : Nat} (h : i ∈ t.map Prod.fst) : ∃ a, tableGet t i = some a := by
  induction t with
  | nil => simp at h
  | cons p t ih =>
    obtain ⟨k, v⟩ := p
    simp only [tableGet]
    split
    · exact ⟨v, rfl⟩
    · rename_i hne
      simp only [List.map_cons, List.mem_cons] at h
      exact ih (h.resolve_left hne)

theorem cellsFrom_keys (k : Nat) (bs : List Byte) : (cellsFrom k bs).map Prod.fst = List.range' k bs.length := by
  induction bs generalizing k with
  | nil => rfl
  | cons b bs ih => simp [cellsFrom, ih, List.range'_succ]

theorem cellsFrom_get (k : Nat) (bs : List Byte) (j : Nat) : tableGet (cellsFrom k bs) (k + j) = bs[j]? := by
  induction bs generalizing k j with
  | nil => simp [cellsFrom, tableGet]
  | cons b bs ih =>
    cases j with
    | zero => simp [cellsFrom, tableGet]
    | succ j =>
      have := ih (k + 1) j
      simp only [cellsFrom, tableGet]
      rw [if_neg (by omega)]
      simpa [Nat.add_assoc, Nat.add_comm 1 j] using this

/-- The cells of a loaded report read back as its bytes, and as no value past its end. -/
theorem reportByte_cells (bs : List Byte) (j : Nat) : reportByte (cellsFrom 0 bs) j = bs[j]? := by
  have h := cellsFrom_get 0 bs j
  rw [Nat.zero_add] at h
  unfold reportByte
  rw [h]
  cases bs[j]? <;> rfl

theorem reportByte_of_some {m : List Host.Cell} {j : Nat} {b : Byte} (h : tableGet m j = some b) :
    reportByte m j = some b := by
  simp [reportByte, h]

/-! Every operation over the report space keeps its canonical form: LOAD_REPORT and RESET are the only ones. -/

theorem cellsFrom_wf (k : Nat) (bs : List Byte) : Memory.wf (cellsFrom k bs) := by
  show ((cellsFrom k bs).map Prod.fst).Pairwise (· < ·)
  rw [cellsFrom_keys]
  exact List.pairwise_lt_range'

theorem resetWith_wf (p : Config) : Memory.wf (State.resetWith p).rpt := List.Pairwise.nil

theorem reset_wf : Memory.wf State.reset.rpt := List.Pairwise.nil

theorem setReport_wf (s : State) (bs : List Byte) : Memory.wf (setReport s (cellsFrom 0 bs)).rpt :=
  cellsFrom_wf 0 bs

theorem resetBlock_wf (s : State) : Memory.wf (resetBlock s).rpt := List.Pairwise.nil

end Sys2Proof.Machine
end

