-- ==== Sys2Proof/Tests/Slice0.lean ====
section
/-! SUPPORT. The model's own tests. Expected results come from the spec: 30_encoding.md R72 to R82 and 95_test_vectors.md;
and one witness for the hypotheses of each statement that has some. -/

namespace Sys2Proof.Tests

open Sys2Proof.Machine Sys2Proof.Claims

/-! ## WellFormed: one ill-formed term for each check (30_encoding.md R71, R81) -/

theorem test_wellFormed_getb : (Instr.getb 256).wellFormed = false ∧ (Instr.getb 255).wellFormed = true := by decide
theorem test_wellFormed_getu8 : (Instr.getu8 256).wellFormed = false := by decide
theorem test_wellFormed_gets16_lo : (Instr.gets16 256 0).wellFormed = false := by decide
theorem test_wellFormed_gets16_hi : (Instr.gets16 0 256).wellFormed = false := by decide
theorem test_wellFormed_dzf : (Instr.dzf .arg 16).wellFormed = false := by decide
theorem test_wellFormed_satc_z : (Instr.satc .arg 16 0).wellFormed = false := by decide
theorem test_wellFormed_satc_rs : (Instr.satc .arg 0 16).wellFormed = false := by decide
theorem test_wellFormed_cond_z : (Instr.cond .arg 16 0).wellFormed = false := by decide
theorem test_wellFormed_cond_rs : (Instr.cond .arg 0 16).wellFormed = false := by decide
theorem test_wellFormed_xlat_rs : (Instr.xlat .arg 16 0).wellFormed = false := by decide
theorem test_wellFormed_xlat_rt : (Instr.xlat .arg 0 16).wellFormed = false := by decide
theorem test_wellFormed_axis_a : (Instr.axis 16 0).wellFormed = false := by decide
theorem test_wellFormed_axis_rt : (Instr.axis 0 16).wellFormed = false := by decide
theorem test_wellTyped_loadReport : (Txn.loadReport [1, 2, 3]).wellTyped Config.standard = false := by decide

/-! ## Decoding: words written out bit by bit from the patterns of R72 to R75, and the samples of R82 -/

theorem test_decode_getb : decode 0b00010000000000000000000011111111#32 = .ok (.getb 255) := by decide
theorem test_decode_getu8 : decode 0b00100000000000000000000000010010#32 = .ok (.getu8 0x12) := by decide
theorem test_decode_gets16 : decode 0b00110000000000001010101000010001#32 = .ok (.gets16 0x11 0xAA) := by decide
theorem test_decode_dzf : decode 0b01001000000000000000000000001110#32 = .ok (.dzf .arg 14) := by decide
theorem test_decode_satc : decode 0b01010000000000000000011100000010#32 = .ok (.satc .res 2 7) := by decide
theorem test_decode_cond : decode 0b01101000000000000000110100000011#32 = .ok (.cond .arg 3 13) := by decide
theorem test_decode_xlat : decode 0b01111000000000001011001000000000#32 = .ok (.xlat .arg 2 11) := by decide
theorem test_decode_axis : decode 0b10000000000000001001000000000011#32 = .ok (.axis 3 9) := by decide

/-- 95_test_vectors.md 2.1: words that decode to nothing. -/
theorem test_decode_illegal :
    decode 0x00000000#32 = .error .illegalOpcode ∧ decode 0x90000000#32 = .error .illegalOpcode ∧
      decode 0xF0000000#32 = .error .illegalOpcode ∧ decode 0x10000100#32 = .error .reservedBit ∧
      decode 0x40000100#32 = .error .reservedBit ∧ decode 0x70001001#32 = .error .reservedBit ∧
      decode 0x80000010#32 = .error .reservedBit := by decide

/-- R82: samples assemble to their words. -/
theorem test_encode_samples :
    encode (.gets16 1 2) = 0x30000201#32 ∧ encode (.dzf .arg 1) = 0x48000001#32 ∧
      encode (.xlat .arg 2 1) = 0x78001200#32 ∧ encode (.axis 3 2) = 0x80002003#32 := by decide

theorem test_decodeTableWord : decodeTableWord 32 0x80001000 = some (.axis 0 1) := by decide

/-! ## A small configured block -/

def config4 : Config := { Config.standard with reportLen := 4 }

def s32 (v : Int) : Word := BitVec.ofInt 32 v

/-- `SPEC[0]`, `SPEC[1]` the bytes at offsets 0 and 1, `SPEC[2]` a zero mask, `SPEC[3]` an offset out of range, `SPEC[8]`
a high nibble; the report 00 80 90 AB. -/
def demo : State :=
  { State.resetWith config4 with
    spec := [(0, ⟨0, 0xFF⟩), (1, ⟨1, 0xFF⟩), (2, ⟨0, 0x00⟩), (3, ⟨9, 0xFF⟩), (8, ⟨3, 0xF0⟩)]
    zones := [(0, ⟨500, 30000⟩)]
    ranges := [(1, ⟨0, 200⟩), (2, ⟨s32 (-100), 100⟩), (11, ⟨0, 51⟩)]
    axes := [(0, ⟨0, 1, true, 0⟩), (2, ⟨0, 1, false, 0⟩)]
    rpt := cellsFrom 0 [0x00, 0x80, 0x90, 0xAB]
    rptV := true
    res := some (s32 (-499))
    arg := some (s32 (-30001)) }

def demoB : State := { demo with cfg := { config4 with xlatArith := .binary64 } }

/-- The result register after an outcome. -/
def resOf : Host.Outcome State Fault Refusal → Option Word
  | .next s => s.res
  | .fault _ => none
  | .refused _ => none

/-- The fault code and info after an outcome; `none` where no fault is recorded. -/
def faultOf : Host.Outcome State Fault Refusal → Option (Byte × Half)
  | .next s => if s.fault then some (s.faultCode, s.faultInfo) else none
  | .fault _ => none
  | .refused _ => none

/-! ## The commands on the vectors of 95_test_vectors.md -/

/-- 2.2: mask 0xF0 on 0xAB gives 0xA0, not shifted. -/
theorem test_getu8_not_shifted : resOf (exec (.getu8 8) demo) = some 160 := by decide
theorem test_getb_is_one : resOf (exec (.getb 8) demo) = some 1 := by decide
/-- 2.2: a zero mask and an offset out of range. -/
theorem test_getb_zero_mask : faultOf (exec (.getb 2) demo) = some (8, 2) := by decide
theorem test_getu8_offset_range : faultOf (exec (.getu8 3) demo) = some (9, 3) := by decide
/-- S3: bytes 00, 80 give -32768. -/
theorem test_gets16_minimum : resOf (exec (.gets16 0 1) demo) = some 0xFFFF8000 := by decide
/-- 2.2: the layout of the high spec comes before the overlap. -/
theorem test_gets16_layout_before_overlap : faultOf (exec (.gets16 0 2) demo) = some (8, 2) := by decide
/-- S8: -499 is inside the dead zone. -/
theorem test_dzf_zeroes : resOf (exec (.dzf .res 0) demo) = some 0 := by decide
theorem test_dzf_does_not_saturate : resOf (exec (.dzf .arg 0) demo) = some (s32 (-30001)) := by decide
/-- 2.3: no dead zone in SATC; negative saturation is -32767 (90_conflicts.md C1). -/
theorem test_satc_has_no_dead_zone : resOf (exec (.satc .res 0 0) demo) = some (s32 (-499)) := by decide
theorem test_satc_negative : resOf (exec (.satc .arg 0 0) demo) = some (s32 (-32767)) := by decide
/-- S11, and equality at the max zone passes (90_conflicts.md C3). -/
theorem test_cond_negative : resOf (exec (.cond .arg 0 0) demo) = some (s32 (-32767)) := by decide
theorem test_cond_equality_passes :
    resOf (exec (.cond .arg 0 0) { demo with arg := some 30000 }) = some 30000 := by decide
/-- 2.4: -32767 from the native range to (-100, 100) truncates toward zero. -/
theorem test_xlat_toward_zero :
    resOf (exec (.xlat .arg 0 2) { demo with arg := some (s32 (-32767)) }) = some (s32 (-99)) := by decide
/-- 2.4: 7067 to (0, 51) is 31 under EXACT and 30 under BINARY64. -/
theorem test_xlat_modes_differ :
    resOf (exec (.xlat .arg 0 11) { demo with arg := some 7067 }) = some 31 ∧
      resOf (exec (.xlat .arg 0 11) { demoB with arg := some 7067 }) = some 30 := by decide
/-- R163 and R271: `XLAT ARG, 0, 0` gives ARG under BINARY64 too, here where R164's formula alone misses it by one. -/
theorem test_xlat_own_range_binary64 :
    resOf (exec (.xlat .arg 0 0) { demoB with arg := some 2147418712 }) = some 2147418712 ∧
      xlatBinary64 2147418712 nativeRange nativeRange = 2147418711 := by decide
/-- 2.5: raw -32768 on a conditioned axis gives 0 in (0, 200) and -99 in (-100, 100). -/
theorem test_axis_conditioned :
    resOf (exec (.axis 0 1) demo) = some 0 ∧ resOf (exec (.axis 0 2) demo) = some (s32 (-99)) := by decide
theorem test_axis_unwritten : faultOf (exec (.axis 1 1) demo) = some (5, 1) := by decide

/-! ## A block built for a reference device (00_scope.md R8, 43_joystick.md R181); its offsets and zones are made up -/

def madeUpLayout : Layout :=
  { spec := [(0, ⟨0, 0xFF⟩), (1, ⟨1, 0xFF⟩), (2, ⟨2, 0xFF⟩), (3, ⟨3, 0xFF⟩)]
    zones := [(1, ⟨7, 9⟩)]
    axes := [(0, ⟨0, 1, true, 1⟩), (1, ⟨2, 3, true, 1⟩), (2, ⟨0, 1, false, 0⟩), (3, ⟨2, 3, false, 0⟩)] }

def builtFor : Config := { config4 with refLayout := some madeUpLayout }

theorem test_reference_is_legal : builtFor.Legal ∧ madeUpLayout.IsReference := ⟨by decide, by decide⟩
/-- R8: an index outside the table is in no configuration; R181: the right stick is not conditioned. -/
theorem test_reference_illegal :
    ¬ { madeUpLayout with zones := [(4, ⟨7, 9⟩)] }.Legal config4 ∧
      ¬ { madeUpLayout with
          axes := [(0, ⟨0, 1, true, 1⟩), (1, ⟨2, 3, true, 1⟩), (2, ⟨0, 1, true, 1⟩), (3, ⟨2, 3, false, 0⟩)] }.IsReference
    := by decide
/-- R272: WRITE_SPEC, then WRITE_ZONES, then WRITE_AXIS, then LOCK; nothing to write while the parameter is OPEN. -/
theorem test_referenceBoot :
    (referenceBoot builtFor).take 5 = [.writeSpec 0 0 0xFF, .writeSpec 1 1 0xFF, .writeSpec 2 2 0xFF,
      .writeSpec 3 3 0xFF, .writeZones 1 7 9] ∧
      (referenceBoot builtFor).getLast? = some .lock ∧ referenceBoot Config.standard = [] := by decide

/-! ## Steps -/

/-- The host's question: after reset, the very next step runs the presented word (here it raises SPEC_INDEX(5)). -/
theorem test_withFetchWord :
    faultOf (step (State.reset.withFetchWord 32 0x10000005)) = some (2, 5) := by decide
/-- P4: right after reset with `WRITE_ARG`, `XLAT ARG, 0, 0` runs. -/
theorem test_step_runs_xlat :
    resOf (step { State.reset with arg := some 7, script := [.issue 0x78000000] }) = some 7 := by decide
/-- 2.6: WRITE_RANGE 0 raises RANGE_INDEX(0); a locked WRITE_SPEC raises CFG_LOCKED(0). -/
theorem test_write_range_zero : faultOf (step { demo with script := [.writeRange 0 0 1] }) = some (3, 0) := by decide
theorem test_locked_write :
    faultOf (step { demo with cfgLocked := true, script := [.writeSpec 6 0 1] }) = some (15, 0) := by decide
/-- R242: with no transaction to perform, the block keeps its state. -/
theorem test_idle : step demo = .next demo := rfl
/-- R208: a list of another length is no LOAD_REPORT, and the model stops (log entry 6). -/
theorem test_report_length : step { demo with script := [.loadReport [1]] } = .fault (.reportLength 1) := rfl

/-! ## Witnesses: a state and operands that meet a statement's hypotheses together -/

theorem demo_inv : demo.Inv :=
  ⟨by decide, by decide, by decide, by decide, by decide, by decide, by decide, by decide, by decide⟩

theorem witness_DecodeOfEncodeIsTheCommand : (Instr.xlat .arg 15 15).wellFormed = true := by decide
theorem witness_EncodeOfDecodeIsTheWord : decode 0x8000F00F#32 = .ok (.axis 15 15) := by decide
theorem witness_DecodingIsTheRowThatMatches :
    ∃ r ∈ opcodeMap 0x8000F00F#32, r.Hit 0x8000F00F#32 ∧ r.command = .axis 15 15 :=
  ⟨⟨0x80000000#32, 0xFFFF0FF0#32, .axis 15 15⟩, by simp [opcodeMap, bits], by decide, rfl⟩
theorem witness_DecodingIsTheRowThatMatches_none :
    { demo with script := [.issue 0x80000010#32] }.script = .issue 0x80000010#32 :: [] ∧ demo.fault = false ∧
      ∀ r ∈ opcodeMap 0x80000010#32, ¬ r.Hit 0x80000010#32 := ⟨rfl, rfl, by decide⟩

theorem witness_IllegalWords_opcode_zero :
    { demo with script := [.issue 0x0FFFFFFF#32] }.script = .issue 0x0FFFFFFF#32 :: [] ∧ demo.fault = false ∧
      (0x0FFFFFFF#32).toNat / 2 ^ 28 = 0 := by decide
theorem witness_IllegalWords_opcode_nine : 9 ≤ (0x90000000#32).toNat / 2 ^ 28 := by decide
theorem witness_IllegalWords_reserved_bit :
    0x80000010#32 &&& reservedBits ((0x80000010#32).toNat / 2 ^ 28) ≠ 0 := by decide

theorem witness_StepRunsTheDecodedCommand :
    { demo with script := [.issue 0x80001000#32, .readResult] }.script = .issue 0x80001000#32 :: [.readResult] ∧
      demo.fault = false ∧ decode 0x80001000#32 = .ok (.axis 0 1) := by decide

theorem witness_GetbCompletes :
    specEntry demo 8 = some ⟨3, 0xF0⟩ ∧ demo.rptV = true ∧ Readable demo ⟨3, 0xF0⟩ 0xAB := by decide
theorem witness_Getu8Completes :
    specEntry demo 0 = some ⟨0, 0xFF⟩ ∧ demo.rptV = true ∧ Readable demo ⟨0, 0xFF⟩ 0x00 := by decide
theorem witness_Gets16Completes :
    specEntry demo 0 = some ⟨0, 0xFF⟩ ∧ specEntry demo 1 = some ⟨1, 0xFF⟩ ∧ demo.rptV = true ∧
      Readable demo ⟨0, 0xFF⟩ 0x00 ∧ Readable demo ⟨1, 0xFF⟩ 0x80 ∧ (0 : Half) ≠ 1 := by decide
theorem witness_DzfCompletes :
    zonesEntry demo 0 = some ⟨500, 30000⟩ ∧ valueReg demo .res = some (s32 (-499)) ∧
      (500#16).toNat < (30000#16).toNat ∧ -32768 ≤ (s32 (-499)).toInt ∧ (s32 (-499)).toInt ≤ 32767 := by decide
theorem witness_SatcCompletes :
    zonesEntry demo 0 = some ⟨500, 30000⟩ ∧ rangeEntry demo 0 = some nativeRange ∧
      valueReg demo .arg = some (s32 (-30001)) ∧ Conditionable ⟨500, 30000⟩ nativeRange (s32 (-30001)) := by decide
theorem witness_CondCompletes :
    zonesEntry demo 0 = some ⟨500, 30000⟩ ∧ rangeEntry demo 0 = some nativeRange ∧
      valueReg demo .res = some (s32 (-499)) ∧ Conditionable ⟨500, 30000⟩ nativeRange (s32 (-499)) := by decide
theorem witness_XlatExactCompletes :
    demo.cfg.xlatArith = .exact ∧ rangeEntry demo 0 = some nativeRange ∧ rangeEntry demo 1 = some ⟨0, 200⟩ ∧
      valueReg demo .res = some (s32 (-499)) ∧ nativeRange.min.toInt < nativeRange.max.toInt ∧
      (0#32).toInt < (200#32).toInt ∧
      (98 : Int) = ((0#32).toInt * (nativeRange.max.toInt - nativeRange.min.toInt) +
        ((s32 (-499)).toInt - nativeRange.min.toInt) * ((200#32).toInt - (0#32).toInt)).tdiv
        (nativeRange.max.toInt - nativeRange.min.toInt) ∧ -(2 ^ 31) ≤ (98 : Int) ∧ (98 : Int) ≤ 2 ^ 31 - 1 := by decide
theorem witness_XlatBinary64Completes :
    demoB.cfg.xlatArith = .binary64 ∧ rangeEntry demoB 0 = some nativeRange ∧ rangeEntry demoB 1 = some ⟨0, 200⟩ ∧
      valueReg demoB .res = some (s32 (-499)) ∧ nativeRange ≠ ⟨0, 200⟩ ∧ nativeRange.min.toInt < nativeRange.max.toInt ∧
      (0#32).toInt < (200#32).toInt ∧ xlatBinary64 (s32 (-499)).toInt nativeRange ⟨0, 200⟩ = 98 := by decide
/-- `q`, `p` and `y` of the same operand, and its result in bounds. -/
theorem witness_XlatBinary64Completes_roundings :
    ∃ q p y : Int × Nat, q = rn64 ((s32 (-499)).toInt - nativeRange.min.toInt)
        (nativeRange.max.toInt - nativeRange.min.toInt).toNat ∧
      p = rn64 (q.1 * ((200#32).toInt - (0#32).toInt)) q.2 ∧ y = rn64 ((0#32).toInt * p.2 + p.1) p.2 ∧
      -(2 ^ 31) ≤ y.1.tdiv y.2 ∧ y.1.tdiv y.2 ≤ 2 ^ 31 - 1 :=
  ⟨_, _, _, rfl, rfl, rfl, by decide, by decide⟩
theorem witness_AxisCompletes_conditioned :
    axisEntry demo 0 = some ⟨0, 1, true, 0⟩ ∧ rangeEntry demo 1 = some ⟨0, 200⟩ ∧
      specEntry demo 0 = some ⟨0, 0xFF⟩ ∧ specEntry demo 1 = some ⟨1, 0xFF⟩ ∧
      zonesEntry demo 0 = some ⟨500, 30000⟩ ∧ (500#16).toNat < (30000#16).toNat ∧ (30000#16).toNat < 32768 ∧
      demo.rptV = true ∧ Readable demo ⟨0, 0xFF⟩ 0x00 ∧ Readable demo ⟨1, 0xFF⟩ 0x80 ∧ (0 : Half) ≠ 1 ∧
      (0#32).toInt < (200#32).toInt := by decide
theorem witness_AxisCompletes_not_conditioned :
    axisEntry demo 2 = some ⟨0, 1, false, 0⟩ ∧ rangeEntry demo 1 = some ⟨0, 200⟩ ∧
      specEntry demo 0 = some ⟨0, 0xFF⟩ ∧ specEntry demo 1 = some ⟨1, 0xFF⟩ ∧ demo.rptV = true ∧
      Readable demo ⟨0, 0xFF⟩ 0x00 ∧ Readable demo ⟨1, 0xFF⟩ 0x80 ∧ (0 : Half) ≠ 1 ∧
      (0#32).toInt < (200#32).toInt := by decide

/-- One command of each constructor whose checks all pass. -/
theorem witness_CommandsCompleteWhereNoCheckFails :
    [Instr.getb 0, .getu8 1, .gets16 0 1, .dzf .res 0, .satc .arg 0 0, .cond .res 0 0, .xlat .arg 0 1, .axis 0 1].all
      (fun i => (firstFailing (commandChecks demo i)).isNone) = true := by decide

/-- One failing check for each fault code of R230 that a command raises, at its place in the order. -/
theorem witness_TransactionRaisesItsFirstFailingCheck_commands :
    demo.fault = false ∧
    firstFailing (transactionChecks demo (.issue 0)) = some (1, 0) ∧
    firstFailing (transactionChecks demo (.issue 0x1000000A)) = some (2, 10) ∧
    firstFailing (transactionChecks demo (.issue 0x78003000)) = some (3, 3) ∧
    firstFailing (transactionChecks demo (.issue 0x48000004)) = some (4, 4) ∧
    firstFailing (transactionChecks demo (.issue 0x80001004)) = some (5, 4) ∧
    firstFailing (transactionChecks { demo with rptV := false } (.issue 0x10000000)) = some (6, 0) ∧
    firstFailing (transactionChecks { demo with arg := none } (.issue 0x48000000)) = some (7, 1) ∧
    firstFailing (transactionChecks demo (.issue 0x10000002)) = some (8, 2) ∧
    firstFailing (transactionChecks demo (.issue 0x20000003)) = some (9, 3) ∧
    firstFailing (transactionChecks demo (.issue 0x30000000)) = some (10, 0) := by decide
theorem witness_TransactionRaisesItsFirstFailingCheck_values :
    firstFailing (transactionChecks { demo with ranges := [(3, ⟨5, 5⟩)] } (.issue 0x78000300)) = some (11, 3) ∧
    firstFailing (transactionChecks { demo with zones := [(1, ⟨600, 600⟩)] } (.issue 0x48000001)) = some (12, 1) ∧
    firstFailing (transactionChecks { demo with zones := [(2, ⟨0, 32768⟩)] } (.issue 0x68000002)) = some (12, 2) ∧
    firstFailing (transactionChecks { demo with arg := some 32768 } (.issue 0x48000000)) = some (13, 1) ∧
    firstFailing (transactionChecks { demo with arg := some 2147483647, ranges := [(1, ⟨0, 1⟩), (2, ⟨0, 200⟩)] }
      (.issue 0x78002100)) = some (14, 0) := by decide
theorem witness_TransactionRaisesItsFirstFailingCheck_writes :
    firstFailing (transactionChecks { demo with cfgLocked := true } (.writeSpec 0 0 0)) = some (15, 0) ∧
    firstFailing (transactionChecks demo (.writeZones 4 0 0)) = some (4, 4) ∧
    firstFailing (transactionChecks demo (.writeAxis 4 0 0 false 0)) = some (5, 4) ∧
    firstFailing (transactionChecks demo (.writeRange 0 0 1)) = some (3, 0) := by decide

theorem witness_CommandWritesResultOrOnlyTheRecord :
    demo.fault = false ∧ (∃ u, exec (.getb 0) demo = .next u) ∧ ∃ u, exec (.getb 2) demo = .next u :=
  ⟨rfl, ⟨_, rfl⟩, ⟨_, rfl⟩⟩
theorem witness_CommandsLeaveTheRestUnchanged :
    (∃ u, exec (.axis 0 1) demo = .next u ∧ u.fault = demo.fault) ∧
      ∃ u, exec (.axis 1 1) demo = .next u ∧ u.fault ≠ demo.fault :=
  ⟨⟨_, rfl, rfl⟩, ⟨_, rfl, by decide⟩⟩
theorem witness_FaultedBlockIgnoresTransactions :
    { demo with fault := true, script := [.lock] }.script = .lock :: [] ∧
      (Txn.lock).wellTyped demo.cfg = true ∧ Txn.lock ≠ .reset ∧ Txn.lock ≠ .readResult ∧ Txn.lock ≠ .readStatus := by
  decide
theorem witness_OnlyResetLeavesAFault :
    ∃ u, step { demo with fault := true, script := [.readStatus] } = .next u := ⟨_, rfl⟩

theorem witness_GetbIsOneExactlyWhereGetu8IsNotZero :
    ∃ u v, exec (.getb 8) demo = .next u ∧ exec (.getu8 8) demo = .next v ∧ u.fault = false ∧ v.fault = false :=
  ⟨_, _, rfl, rfl, rfl, rfl⟩
theorem witness_AllZeroReportDecodesToZero :
    ∃ u, exec (.gets16 0 1) { demo with rpt := cellsFrom 0 [0, 0, 0, 0] } = .next u ∧ u.fault = false :=
  ⟨_, rfl, rfl⟩
theorem witness_AllZeroReportDecodesToZero_report (k : Nat) (b : Byte)
    (h : reportByte (cellsFrom 0 [0, 0, 0, 0]) k = some b) : b = 0 := by
  match k with
  | 0 => exact (Option.some.inj h).symm
  | 1 => exact (Option.some.inj h).symm
  | 2 => exact (Option.some.inj h).symm
  | 3 => exact (Option.some.inj h).symm
  | k + 4 => simp [reportByte, cellsFrom, tableGet, unlistedByte] at h
theorem witness_CondIsDzfThenSatc : ∃ u, exec (.cond .arg 0 0) demo = .next u ∧ u.fault = false := ⟨_, rfl, rfl⟩
theorem witness_CondOnTheNativeRange :
    ∃ u, exec (.cond .arg 0 0) { demo with arg := some (s32 (-32768)) } = .next u ∧ u.fault = false := ⟨_, rfl, rfl⟩

theorem witness_Translation :
    nativeRange.min.toInt < nativeRange.max.toInt ∧ (0#32).toInt < (200#32).toInt ∧
      nativeRange.min.toInt ≤ (-32768 : Int) ∧ (-32768 : Int) ≤ 32767 ∧ (32767 : Int) ≤ nativeRange.max.toInt := by
  decide
theorem witness_XlatMapsEndpointsExactly :
    valueReg { demo with arg := some nativeRange.min } .arg = some nativeRange.min ∧
      valueReg { demo with arg := some nativeRange.max } .arg = some nativeRange.max ∧
      rangeEntry demo 0 = some nativeRange ∧ nativeRange.min.toInt < nativeRange.max.toInt ∧
      rangeEntry demo 2 = some ⟨s32 (-100), 100⟩ ∧ (s32 (-100)).toInt < (100#32).toInt := by decide
theorem witness_XlatToItsOwnRange :
    ∃ s : State, s.cfg.xlatArith = .binary64 ∧ rangeEntry s 1 = some ⟨0, 200⟩ ∧ rangeEntry s 3 = some ⟨0, 200⟩ ∧
      valueReg s .arg = some (s32 (-30001)) ∧ (0#32).toInt < (200#32).toInt :=
  ⟨{ demoB with ranges := [(1, ⟨0, 200⟩), (3, ⟨0, 200⟩)] }, by decide⟩
theorem witness_RoundingIsToTheNearestBinary64 : (39835 : Int) ≠ 0 ∧ 0 < 65535 := by decide
/-- At the top of a binade: 2^53 - 1 is a binary64 value and stays; 2^53 + 1 is a tie and goes to the even 2^53. -/
theorem test_rounding_at_the_binade :
    rn64 (2 ^ 53 - 1) 1 = (2 ^ 53 - 1, 1) ∧ rn64 (2 ^ 53 + 1) 1 = (2 ^ 53, 1) := by decide

theorem witness_AxisEqualsItsCommandSequence_conditioned :
    ∃ u m1 m2 m3, axisEntry demo 0 = some ⟨0, 1, true, 0⟩ ∧ exec (.axis 0 1) demo = .next u ∧ u.fault = false ∧
      exec (.gets16 0 1) demo = .next m1 ∧ m1.fault = false ∧ exec (.cond .res 0 0) m1 = .next m2 ∧
      m2.fault = false ∧ exec (.xlat .res 0 1) m2 = .next m3 ∧ m3.fault = false :=
  ⟨_, _, _, _, rfl, rfl, rfl, rfl, rfl, rfl, rfl, rfl, rfl⟩
theorem witness_AxisEqualsItsCommandSequence_not_conditioned :
    ∃ u m1 m3, axisEntry demo 2 = some ⟨0, 1, false, 0⟩ ∧ exec (.axis 2 2) demo = .next u ∧ u.fault = false ∧
      exec (.gets16 0 1) demo = .next m1 ∧ m1.fault = false ∧ exec (.xlat .res 0 2) m1 = .next m3 ∧
      m3.fault = false :=
  ⟨_, _, _, rfl, rfl, rfl, rfl, rfl, rfl, rfl⟩
theorem witness_AxisSequenceCompletesWhereAxisDoes :
    axisEntry demo 0 = some ⟨0, 1, true, 0⟩ ∧ demo.fault = false ∧
      ∃ u, exec (.axis 0 1) demo = .next u ∧ u.fault = false := ⟨rfl, rfl, _, rfl, rfl⟩
theorem witness_AxisSequenceCompletesWhereAxisDoes_binary64 :
    axisEntry demoB 0 = some ⟨0, 1, true, 0⟩ ∧ demoB.fault = false ∧
      ∃ u, exec (.axis 0 1) demoB = .next u ∧ u.fault = false := ⟨rfl, rfl, _, rfl, rfl⟩
theorem witness_ConditionedAxisAtFullDeflection_entries :
    axisEntry demo 0 = some ⟨0, 1, true, 0⟩ ∧ rangeEntry demo 1 = some ⟨0, 200⟩ ∧
      zonesEntry demo 0 = some ⟨500, 30000⟩ ∧ specEntry demo 0 = some ⟨0, 0xFF⟩ ∧ specEntry demo 1 = some ⟨1, 0xFF⟩ ∧
      reportByte demo.rpt 0 = some 0x00 ∧ reportByte demo.rpt 1 = some 0x80 := by decide
/-- Full negative deflection in `demo` (raw -32768), full positive in a report FF 7F. -/
theorem witness_ConditionedAxisAtFullDeflection :
    (shortOf ⟨0, 0xFF⟩ ⟨1, 0xFF⟩ 0x80 0x00).toInt ≤ -((30000#16).toNat + 1 : Int) ∧
      ((30000#16).toNat : Int) + 1 ≤ (shortOf ⟨0, 0xFF⟩ ⟨1, 0xFF⟩ 0x7F 0xFF).toInt ∧
      (∃ u, exec (.axis 0 1) demo = .next u ∧ u.fault = false) ∧
      ∃ u, exec (.axis 0 1) { demo with rpt := cellsFrom 0 [0xFF, 0x7F, 0, 0] } = .next u ∧ u.fault = false :=
  ⟨by decide, by decide, ⟨_, rfl, rfl⟩, ⟨_, rfl, rfl⟩⟩
theorem witness_ReportCommandsSeeOnlyConfigurationAndReport :
    SameDeviceView demo { demo with res := none, arg := none, cfgLocked := true } ∧
      exec (.getb 8) demo = .next { demo with res := some 1 } := ⟨by decide, rfl⟩

theorem witness_WriteSpec_boundary :
    demo.fault = false ∧ demo.cfgLocked = false ∧ (255#8).toNat < demo.cfg.nspec ∧
      { demo.cfg with nspec := 16 }.nspec ≤ (16#8).toNat := by decide
theorem witness_WriteZones_boundary : (3#4).toNat < demo.cfg.nzones ∧ demo.cfg.nzones ≤ (4#4).toNat := by decide
theorem witness_WriteAxis_boundary : (3#4).toNat < 4 ∧ 4 ≤ (4#4).toNat := by decide
theorem witness_WriteRange_boundary :
    (15#4).toNat ≠ 0 ∧ (15#4).toNat < demo.cfg.nrange ∧ (0#4).toNat = 0 ∧
      { demo.cfg with nrange := 2 }.nrange ≤ (2#4).toNat := by decide
theorem witness_LoadReport :
    { demo with script := [.loadReport [1, 2, 3, 4]] }.script = .loadReport [1, 2, 3, 4] :: [] ∧
      [1#8, 2#8, 3#8, 4#8].length = demo.cfg.reportLen := by decide
/-- Each clause's flags, with the transaction at the head of the script. -/
theorem witness_write_scripts :
    { demo with script := [.writeSpec 255 9 0] }.script = .writeSpec 255 9 0 :: [] ∧
      { demo with script := [.writeZones 3 1 2] }.script = .writeZones 3 1 2 :: [] ∧
      { demo with script := [.writeAxis 3 0 1 true 0] }.script = .writeAxis 3 0 1 true 0 :: [] ∧
      { demo with script := [.writeRange 15 0 1] }.script = .writeRange 15 0 1 :: [] ∧
      { demo with fault := true, script := [.writeRange 15 0 1] }.fault = true ∧
      { demo with cfgLocked := true, script := [.writeSpec 255 9 0] }.cfgLocked = true ∧ demo.fault = false := by decide
theorem witness_scripts :
    { demo with script := [.writeArg 5] }.script = .writeArg 5 :: [] ∧
      { demo with script := [.reset] }.script = .reset :: [] ∧
      { demo with script := [.readResult] }.script = .readResult :: [] := by decide
theorem witness_ResetKeepsTheParametersAndTheHostsSide :
    ∃ u, step { demo with fault := true, script := [.reset, .lock] } = .next u := ⟨_, rfl⟩
theorem witness_LockFreezesTheConfiguration :
    { demo with cfgLocked := true, script := [.writeZones 0 1 2] }.script = .writeZones 0 1 2 :: [] ∧
      ∃ u, step { demo with cfgLocked := true, script := [.lock] } = .next u := ⟨rfl, _, rfl⟩
theorem witness_EachRegisterHasItsOwnWriters :
    ∃ u, step { demo with script := [.loadReport [1, 2, 3, 4]] } = .next u := ⟨_, rfl⟩
/-- The record's clause: WRITE_RANGE 0 records a fault. -/
theorem witness_EachRegisterHasItsOwnWriters_record :
    ∃ u, step { demo with script := [.writeRange 0 0 1] } = .next u ∧ ¬ SameRecord demo u := ⟨_, rfl, by decide⟩
theorem witness_RightAfterReset :
    Config.standard.Legal ∧ { Config.standard with xlatArith := .binary64 }.Legal := by decide
theorem witness_ReferenceBootLoadsTheLayoutAndLocks : builtFor.Legal ∧ builtFor.refLayout = some madeUpLayout := by
  decide
theorem witness_ReferenceAxesAreLittleEndianFields :
    ∃ s : State, s.cfg.Legal ∧ s.cfg.refLayout = some madeUpLayout ∧ madeUpLayout.IsReference ∧
      s.spec = madeUpLayout.spec ∧ s.axes = madeUpLayout.axes ∧ s.rptV = true ∧ 2 + 1 < s.cfg.reportLen ∧
      reportByte s.rpt 2 = some 0x90 ∧ reportByte s.rpt (2 + 1) = some 0xAB :=
  ⟨{ demo with cfg := builtFor, spec := madeUpLayout.spec, axes := madeUpLayout.axes },
    test_reference_is_legal.1, rfl, test_reference_is_legal.2, rfl, rfl, rfl, by decide, rfl, rfl⟩
theorem witness_EveryStepKeepsTheInvariant :
    ∃ u, step { demo with script := [.writeRange 15 0 1] } = .next u := ⟨_, rfl⟩
theorem witness_EveryStepKeepsTheInvariant_state : { demo with script := [.writeRange 15 0 1] }.Inv :=
  ⟨by decide, by decide, by decide, by decide, by decide, by decide, by decide, by decide, by decide⟩

end Sys2Proof.Tests
end

section
/-! SUPPORT. The scope's statement on what a command changes (00_scope.md R13). -/

namespace Sys2Proof.Claims

open Sys2Proof.Machine

/-- The fault entry, in a state without a fault, in the words of the statements (60_exceptions.md R231). -/
theorem raise_eq_recorded {s : State} (h : s.fault = false) (e : FaultCode) (info : Nat) (src : Bool) (cmd : Word) :
    raise s e info src cmd = recorded s (codeOf e) info src cmd :=
  raise_clear h e info src cmd

/-- Settles O18: a command's next state is either its result written or its first failing check raised (`exec_next`),
and without a fault in force to raise is to write the record and nothing else. -/
theorem commandWritesResultOrOnlyTheRecord : Obligations.CommandWritesResultOrOnlyTheRecord := by
  intro i s u hclear hexec
  rcases exec_next hexec with ⟨v, hu⟩ | ⟨e, info, hu⟩
  · exact .inl ⟨v, hu⟩
  · exact .inr ⟨codeOf e, info, hu.trans (raise_eq_recorded hclear e info false (encode i))⟩

end Sys2Proof.Claims
end

section
/-! SUPPORT. What a step can answer, and the state's own statements (10_state.md): its invariant, its reset values, the
lock and the writers of each register. -/

namespace Sys2Proof.Claims

open Sys2Proof.Machine

/-! A step, inverted once. -/

/-- A step that answers a next state was idle, or performed the script's next transaction (00_scope.md R7). -/
theorem step_next {s u : State} (h : step s = .next u) :
    (s.script = [] ∧ u = s) ∨ ∃ t ts, s.script = t :: ts ∧ Performed (setScript s ts) u t := by
  cases hs : s.script with
  | nil =>
    rw [step_idle hs] at h
    exact .inl ⟨rfl, by simpa [eq_comm] using h⟩
  | cons t ts =>
    rw [step_cons hs] at h
    exact .inr ⟨t, ts, rfl, perform_next h⟩

/-- The step of a state whose next transaction is `t`. -/
theorem step_performed {s u : State} {t : Txn} {rest : List Txn} (hs : s.script = t :: rest) (h : step s = .next u) :
    Performed (setScript s rest) u t :=
  perform_next ((step_cons hs).symm.trans h)

/-! The invariant. -/

/-- The state after reset meets the invariant: every table is empty, no report stands, and the record is clear. -/
theorem resetWith_inv {p : Config} (hp : p.Legal) : (State.resetWith p).Inv where
  legal := hp
  specForm := ⟨.nil, by simp [State.resetWith]⟩
  zonesForm := ⟨.nil, by simp [State.resetWith]⟩
  rangesForm := ⟨.nil, by simp [State.resetWith]⟩
  axesForm := ⟨.nil, by simp [State.resetWith]⟩
  report := rfl
  clear := fun _ => ⟨rfl, rfl, rfl, rfl⟩
  code := fun h => nomatch h
  source := fun h => nomatch h

/-- The invariant does not speak of the host's side: a state with another script and other replies meets it too. -/
theorem inv_withHost {s : State} (h : s.Inv) (ts : List Txn) (rs : List Reply) :
    State.Inv { s with script := ts, replies := rs } :=
  { h with }

theorem resetBlock_inv {s : State} (h : s.Inv) : (resetBlock s).Inv :=
  inv_withHost (resetWith_inv h.legal) s.script s.replies

/-- Writing a bounded index keeps a table in form and in its bounds. -/
theorem tablePut_form {α : Type} {t : List (Nat × α)} (bound : Nat → Prop) (h : Rising t ∧ ∀ e ∈ t, bound e.1)
    {i : Nat} (hi : bound i) (a : α) : Rising (tablePut t i a) ∧ ∀ e ∈ tablePut t i a, bound e.1 := by
  refine ⟨rising_put t i a h.1, fun e he => ?_⟩
  rcases tablePut_keys t i a he with hkey | hmem
  · exact hkey ▸ hi
  · exact h.2 e hmem

/-- The codes of 60_exceptions.md R230 are 1 to 15. -/
theorem codeOf_bounds (e : FaultCode) : 1 ≤ (codeOf e).toNat ∧ (codeOf e).toNat ≤ 15 := by
  cases e <;> decide

theorem setRecord_inv {s : State} (h : s.Inv) (e : FaultCode) (info : Half) {src : Bool} {cmd : Word}
    (hsrc : src = true → cmd = 0) : (setRecord s (codeOf e) info src cmd).Inv :=
  { h with
    clear := fun hclear => nomatch hclear
    code := fun _ => codeOf_bounds e
    source := hsrc }

/-- A write keeps the invariant: a table's index has been checked against its bound, and a report is loaded whole. -/
theorem wrote_inv {s u : State} {t : Txn} (h : s.Inv) (hw : Wrote s u t) : u.Inv := by
  cases hw with
  | spec i off mask _ hi hu => exact hu ▸ { h with specForm := tablePut_form (· < s.cfg.nspec) h.specForm hi _ }
  | zones z dz mz _ hz hu => exact hu ▸ { h with zonesForm := tablePut_form (· < s.cfg.nzones) h.zonesForm hz _ }
  | axis a lo hi c z _ ha hu => exact hu ▸ { h with axesForm := tablePut_form (· < naxis) h.axesForm ha _ }
  | range r min max h0 hr hu =>
    exact hu ▸ { h with
      rangesForm := tablePut_form (fun k => 1 ≤ k ∧ k < s.cfg.nrange) h.rangesForm ⟨by omega, hr⟩ _ }
  | lock hu => exact hu ▸ { h with }
  | arg v hu => exact hu ▸ { h with }
  | report bytes hlen hu =>
    have hkeys : (cellsFrom 0 bytes).map Prod.fst = List.range s.cfg.reportLen := by
      rw [cellsFrom_keys, hlen, List.range_eq_range']
    exact hu ▸ { h with report := hkeys }
  | result w v hu => exact hu ▸ { h with }

/-- Every transaction keeps the invariant. -/
theorem performed_inv {s u : State} {t : Txn} (h : s.Inv) (hp : Performed s u t) : u.Inv := by
  cases hp with
  | ignored _ hu => exact hu ▸ h
  | faulted _ _ e n src cmd hsrc hu => exact hu ▸ setRecord_inv h e _ hsrc
  | wrote _ hw => exact wrote_inv h hw
  | reset _ hu => exact hu ▸ resetBlock_inv h
  | readResult _ hu => exact hu ▸ inv_withHost h _ _
  | readStatus _ hu => exact hu ▸ inv_withHost h _ _

/-- Settles O49: an idle step changes nothing, and a transaction keeps the invariant (`performed_inv`), which the move of
the script past it does not touch. -/
theorem everyStepKeepsTheInvariant : Obligations.EveryStepKeepsTheInvariant := by
  intro s u hinv hstep
  rcases step_next hstep with ⟨_, rfl⟩ | ⟨t, ts, _, hp⟩
  · exact hinv
  · exact performed_inv (inv_withHost hinv ts s.replies) hp

/-- Settles O48: see `resetWith_inv`. -/
theorem resetMeetsTheInvariant : Obligations.ResetMeetsTheInvariant := fun _ => resetWith_inv

/-! The reset values. -/

/-- The state after reset has the values of 10_state.md R35: no table lists an entry, so none but `RANGE[0]` holds one. -/
theorem resetWith_atReset (p : Config) : AtReset (State.resetWith p) := by
  refine ⟨fun i => ?_, fun z => ?_, fun r hr => ?_, fun hn => ?_, fun a => ?_, fun _ => rfl, rfl, rfl, rfl, rfl, rfl, rfl,
    rfl, rfl, rfl⟩
  · exact ite_self none
  · exact ite_self none
  · have : r ≠ 0 := by omega
    simp [rangeEntry, this, State.resetWith, tableGet]
  · exact if_pos hn
  · exact ite_self none

/-- What the host holds is no part of the reset values. -/
theorem resetBlock_atReset (s : State) : AtReset (resetBlock s) := resetWith_atReset s.cfg

/-- Settles O43: RESET has no guard, so it answers `resetBlock` in every state. -/
theorem resetLeavesTheResetValues : Obligations.ResetLeavesTheResetValues := by
  refine ⟨fun s rest hs => ?_, resetWith_atReset⟩
  exact ⟨resetBlock (setScript s rest), step_cons hs, resetBlock_atReset _⟩

/-! The frame of a command. -/

/-- The fault entry changes the record alone, and the record only together with `FAULT` (60_exceptions.md R231). -/
theorem raise_eq_self_or_setRecord (s : State) (e : FaultCode) (n : Nat) (src : Bool) (cmd : Word) :
    raise s e n src cmd = s ∨
      (s.fault = false ∧ raise s e n src cmd = setRecord s (codeOf e) (BitVec.ofNat 16 n) src cmd) := by
  cases hf : s.fault with
  | true => exact .inl (raise_faulted hf e n src cmd)
  | false => exact .inr ⟨rfl, raise_clear hf e n src cmd⟩

/-- Settles O19: a command writes `RES`, or raises (`exec_next`), and to raise writes the record or nothing. -/
theorem commandsLeaveTheRestUnchanged : Obligations.CommandsLeaveTheRestUnchanged := by
  intro i s u hexec
  rcases exec_next hexec with ⟨v, rfl⟩ | ⟨e, n, rfl⟩
  · simp
  · rcases raise_eq_self_or_setRecord s e n false (encode i) with hsame | ⟨hclear, hrec⟩
    · simp [hsame]
    · simp [hrec, hclear]

/-! The lock. -/

/-- The three writes that the lock stops (10_state.md R31). -/
abbrev WritesConfiguration (t : Txn) : Prop :=
  (∃ i off mask, t = .writeSpec i off mask) ∨ (∃ z dz mz, t = .writeZones z dz mz) ∨
    ∃ a lo hi cond z, t = .writeAxis a lo hi cond z

/-- While locked, a configuration write ends in the fault `CFG_LOCKED`. -/
theorem perform_locked {s : State} {t : Txn} (hclear : s.fault = false) (hlock : s.cfgLocked = true)
    (ht : WritesConfiguration t) : perform exec t s = .next (recorded s 15 0 true 0) := by
  have hraise : raiseHost s .cfgLocked 0 = recorded s 15 0 true 0 := raise_eq_recorded hclear .cfgLocked 0 true 0
  rcases ht with ⟨i, off, mask, rfl⟩ | ⟨z, dz, mz, rfl⟩ | ⟨a, lo, hi, c, z, rfl⟩
  · simp [perform, writeSpec, unlessFaulted_clear hclear, hlock, hraise]
  · simp [perform, writeZones, unlessFaulted_clear hclear, hlock, hraise]
  · simp [perform, writeAxis, unlessFaulted_clear hclear, hlock, hraise]

/-- While locked, no transaction but RESET clears the lock or changes a locked table: the three writes have found the
lock clear. -/
theorem performed_locked {s u : State} {t : Txn} (hlock : s.cfgLocked = true) (ht : t ≠ .reset)
    (hp : Performed s u t) : u.cfgLocked = true ∧ u.spec = s.spec ∧ u.zones = s.zones ∧ u.axes = s.axes := by
  cases hp with
  | ignored _ hu => simp [hu, hlock]
  | faulted _ _ _ _ _ _ _ hu => simp [hu, hlock]
  | wrote _ hw =>
    cases hw with
    | spec _ _ _ hopen => simp [hlock] at hopen
    | zones _ _ _ hopen => simp [hlock] at hopen
    | axis _ _ _ _ _ hopen => simp [hlock] at hopen
    | range _ _ _ _ _ hu => simp [hu, hlock]
    | lock hu => simp [hu]
    | arg _ hu => simp [hu, hlock]
    | report _ _ hu => simp [hu, hlock]
    | result _ _ hu => simp [hu, hlock]
  | reset hreset _ => exact absurd hreset ht
  | readResult _ hu => simp [hu, hlock, readResult]
  | readStatus _ hu => simp [hu, hlock, readStatus]

/-- Settles O42: LOCK's own write, the locked writes (`perform_locked`), and every other step (`performed_locked`). -/
theorem lockFreezesTheConfiguration : Obligations.LockFreezesTheConfiguration := by
  refine ⟨fun s rest hs hclear => ?_, fun s t rest hs hclear hlock ht => ?_, fun s u hlock hstep hhead => ?_⟩
  · rw [step_cons hs, perform, lock, unlessFaulted_clear (by simpa using hclear)]
    rfl
  · rw [step_cons hs]
    exact perform_locked (by simpa using hclear) (by simpa using hlock) ht
  · rcases step_next hstep with ⟨_, rfl⟩ | ⟨t, ts, hs, hp⟩
    · exact ⟨hlock, rfl, rfl, rfl⟩
    · have ht : t ≠ .reset := by simpa [hs] using hhead
      simpa using performed_locked (by simpa using hlock) ht hp

/-! The writers of each register. -/

/-- A transaction without checks is one that cannot raise. -/
theorem canRaise_eq_not_raisesNothing (t : Txn) : canRaise t = !raisesNothing t := by
  cases t <;> rfl

/-- Settles O46: a step that performs `t` leaves every register as it is, raises, or writes the one register that `t`
writes (`Performed`, `Wrote`). -/
theorem eachRegisterHasItsOwnWriters : Obligations.EachRegisterHasItsOwnWriters := by
  intro s u t rest hs hstep
  unfold SameRecord
  cases step_performed hs hstep with
  | ignored _ hu => simp [hu]
  | faulted hclear hraises _ _ _ _ _ hu =>
    have hfirst : s.fault = false := hclear
    simp [hu, hfirst, canRaise_eq_not_raisesNothing, hraises]
  | wrote _ hw =>
    cases hw with
    | spec _ _ _ _ _ hu => simp [hu]
    | zones _ _ _ _ _ hu => simp [hu]
    | axis _ _ _ _ _ _ _ hu => simp [hu]
    | range _ _ _ _ _ hu => simp [hu]
    | lock hu => simp [hu]
    | arg _ hu => simp [hu]
    | report _ _ hu => simp [hu]
    | result _ _ hu => simp [hu]
  | reset ht hu => simp [hu, ht]
  | readResult ht hu => simp [hu, ht, readResult]
  | readStatus ht hu => simp [hu, ht, readStatus]

end Sys2Proof.Claims
end

section
/-! SUPPORT. The commands' own checks are the rows of 60_exceptions.md R233 (`Claims.commandChecks`): a command stops at its
first failing check with the code and the info of the row, and completes where none fails. -/

namespace Sys2Proof.Claims

open Sys2Proof.Machine

variable {α β : Type} {s : State}

/-- The evaluation `x` makes the checks of a row, one after the other: it raises the first that fails, and behind the last
one it completes, in a state that meets the invariant. -/
def FollowsChecks (s : State) : List Check → Except Stop α → Prop
  | [], x => s.Inv → ∃ a, x = .ok a
  | (true, code, info) :: _, x => ∃ e, codeOf e = code ∧ x = .error (.raises e info)
  | (false, _, _) :: rest, x => FollowsChecks s rest x

theorem FollowsChecks.completes {cs : List Check} {x : Except Stop α} (h : FollowsChecks s cs x) (hinv : s.Inv)
    (hpass : firstFailing cs = none) : ∃ a, x = .ok a := by
  induction cs with
  | nil => exact h hinv
  | cons c rest ih =>
    obtain ⟨fails, code, info⟩ := c
    cases fails with
    | true => simp [firstFailing] at hpass
    | false => exact ih h hpass

theorem FollowsChecks.raises {cs : List Check} {x : Except Stop α} (h : FollowsChecks s cs x) {code : Byte} {info : Nat}
    (hfail : firstFailing cs = some (code, info)) : ∃ e, codeOf e = code ∧ x = .error (.raises e info) := by
  induction cs with
  | nil => simp [firstFailing] at hfail
  | cons c rest ih =>
    obtain ⟨fails, code', info'⟩ := c
    cases fails with
    | true =>
      obtain ⟨rfl, rfl⟩ : code' = code ∧ info' = info := by simpa [firstFailing] using hfail
      exact h
    | false => exact ih h hfail

/-! One check, then the rest of the row. -/

section OneCheck

variable {cs : List Check} {f : α → Except Stop β} {g : Unit → Except Stop β} {e : FaultCode} {code : Byte} {info : Nat}

theorem follows_require {fails ok : Bool} (hcode : codeOf e = code) (hok : ok = true ↔ fails = false)
    (hrest : ok = true → FollowsChecks s cs (g ())) :
    FollowsChecks s ((fails, code, info) :: cs) (require ok e info >>= g) := by
  cases fails with
  | true =>
    have hstop : ok = false := by simpa using hok
    exact ⟨e, hcode, by rw [hstop]; rfl⟩
  | false =>
    have hpass : ok = true := hok.2 rfl
    rw [hpass]
    exact hrest hpass

theorem follows_requireEntry {x : Option α} (hcode : codeOf e = code)
    (hrest : ∀ a, x = some a → FollowsChecks s cs (f a)) :
    FollowsChecks s ((x.isNone, code, info) :: cs) (requireEntry x e info >>= f) := by
  cases x with
  | none => exact ⟨e, hcode, rfl⟩
  | some a => exact hrest a rfl

theorem follows_checkReport (hrest : s.rptV = true → FollowsChecks s cs (g ())) :
    FollowsChecks s ((!s.rptV, 6, 0) :: cs) (checkReport s >>= g) :=
  follows_require rfl (by simp) hrest

theorem follows_checkSpecLayout {i : Nat} {d : ButtonSpec} (hd : specEntry s i = some d)
    (hrest : d.off.toNat < s.cfg.reportLen → FollowsChecks s cs (g ())) :
    FollowsChecks s (layoutChecks s i ++ cs) (checkSpecLayout s i d >>= g) := by
  rw [checkSpecLayout, bind_assoc]
  refine follows_require rfl (by simp [hd, onEntry]) fun _ => ?_
  refine follows_require rfl (by simp [hd, onEntry]) fun hoff => ?_
  exact hrest (by simpa using hoff)

theorem follows_checkDistinct {lo hi : Nat} {l h : ButtonSpec} (hl : specEntry s lo = some l)
    (hh : specEntry s hi = some h) (hrest : FollowsChecks s cs (g ())) :
    FollowsChecks s ((overlap s lo hi, 10, lo) :: cs) (checkDistinct lo l h >>= g) :=
  follows_require rfl (by simp [overlap, onEntry, hl, hh]) fun _ => hrest

theorem follows_checkRange {r : Nat} {x : AxisRange} (hx : rangeEntry s r = some x)
    (hrest : FollowsChecks s cs (g ())) :
    FollowsChecks s ((badRange s r, 11, r) :: cs) (checkRange r x >>= g) :=
  follows_require rfl (by simp [badRange, onEntry, hx]) fun _ => hrest

theorem follows_checkZonesPair {z : Nat} {c : ConditioningZones} (hc : zonesEntry s z = some c)
    (hrest : FollowsChecks s cs (g ())) :
    FollowsChecks s ((badPair s z, 12, z) :: cs) (checkZonesPair z c >>= g) :=
  follows_require rfl (by simp [badPair, onEntry, hc]) fun _ => hrest

theorem follows_checkZonesFit {z r : Nat} {c : ConditioningZones} {x : AxisRange} (hc : zonesEntry s z = some c)
    (hx : rangeEntry s r = some x) (hrest : FollowsChecks s cs (g ())) :
    FollowsChecks s ((badFit s z r, 12, z) :: cs) (checkZonesFit z c x >>= g) :=
  follows_require rfl (by simp [badFit, onEntry, hc, hx]; omega) fun _ => hrest

theorem follows_checkS16 {src : Src} {w : Word} (hw : valueReg s src = some w) (hrest : FollowsChecks s cs (g ())) :
    FollowsChecks s ((badOperand s src, 13, srcBit src) :: cs) (checkS16 w.toInt src >>= g) :=
  follows_require rfl (by simp [badOperand, onEntry, hw]) fun _ => hrest

end OneCheck

theorem follows_operand {cs : List Check} {f : Int → Except Stop β} {src : Src}
    (hrest : ∀ w, valueReg s src = some w → FollowsChecks s cs (f w.toInt)) :
    FollowsChecks s (((valueReg s src).isNone, 7, srcBit src) :: cs) (operand s src >>= f) := by
  cases src with
  | res =>
    rw [operand, bind_assoc]
    exact follows_requireEntry rfl hrest
  | arg =>
    rw [operand, bind_assoc]
    exact follows_requireEntry rfl hrest

/-! Behind the checks the report holds a byte at every offset below its length (10_state.md R30). -/

theorem reportByte_of_inv (hinv : s.Inv) (hv : s.rptV = true) {off : Nat} (hoff : off < s.cfg.reportLen) :
    ∃ b, reportByte s.rpt off = some b := by
  have hkey : off ∈ s.rpt.map Prod.fst := by simpa [hinv.report, hv] using hoff
  obtain ⟨b, hb⟩ := tableGet_of_key s.rpt hkey
  exact ⟨b, reportByte_of_some hb⟩

theorem sShort_of_inv (hinv : s.Inv) (hv : s.rptV = true) {l h : ButtonSpec} (hl : l.off.toNat < s.cfg.reportLen)
    (hh : h.off.toNat < s.cfg.reportLen) : ∃ v, sShort s l h = .ok v := by
  obtain ⟨bl, hbl⟩ := reportByte_of_inv hinv hv hl
  obtain ⟨bh, hbh⟩ := reportByte_of_inv hinv hv hh
  exact ⟨_, sShort_eq_ok.2 ⟨bh, bl, hbh, hbl, rfl⟩⟩

/-! The rows that commands share. -/

theorem follows_maskedByte (i : Nat) (f : Byte → Word) :
    FollowsChecks s (((specEntry s i).isNone, 2, i) :: (!s.rptV, 6, 0) :: (layoutChecks s i ++ []))
      (maskedByte s i >>= fun m => .ok (f m)) := by
  simp only [maskedByte, bind_assoc]
  refine follows_requireEntry rfl fun d hd => ?_
  refine follows_checkReport fun hv => ?_
  refine follows_checkSpecLayout hd fun hoff => ?_
  intro hinv
  obtain ⟨b, hb⟩ := reportByte_of_inv hinv hv hoff
  exact ⟨_, by rw [memRead_some hb]; rfl⟩

theorem follows_conditioned (src : Src) (z rs : Nat) (f : Int × ConditioningZones × AxisRange → Word) :
    FollowsChecks s (commandChecks s (.cond src z rs)) (conditioned s src z rs >>= fun x => .ok (f x)) := by
  simp only [conditioned, bind_assoc]
  refine follows_requireEntry rfl fun c hc => ?_
  refine follows_requireEntry rfl fun r hr => ?_
  refine follows_operand fun w hw => ?_
  refine follows_checkRange hr ?_
  refine follows_checkZonesPair hc ?_
  refine follows_checkZonesFit hc hr ?_
  refine follows_checkS16 hw ?_
  exact fun _ => ⟨_, rfl⟩

/-! AXIS looks up and checks conditioning zones only where its descriptor conditions (43_joystick.md R180). -/

theorem follows_axisZones {cs : List Check} {f : Option ConditioningZones → Except Stop β} {d : AxisDesc}
    (hrest : ∀ c, c.isSome = d.cond → (∀ k, c = some k → zonesEntry s d.z.toNat = some k) → FollowsChecks s cs (f c)) :
    FollowsChecks s ((d.cond && (zonesEntry s d.z.toNat).isNone, 4, d.z.toNat) :: cs) (axisZones s d >>= f) := by
  cases hcond : d.cond with
  | false =>
    rw [axisZones, hcond]
    exact hrest none hcond.symm nofun
  | true =>
    simp only [axisZones, hcond, if_true, bind_assoc]
    refine follows_requireEntry rfl fun k hk => ?_
    exact hrest (some k) hcond.symm fun _ h => hk.trans h

theorem follows_checkAxisZones {cs : List Check} {g : Unit → Except Stop β} {d : AxisDesc} {c : Option ConditioningZones}
    (hsome : c.isSome = d.cond) (hc : ∀ k, c = some k → zonesEntry s d.z.toNat = some k)
    (hnative : rangeEntry s 0 = some nativeRange) (hrest : FollowsChecks s cs (g ())) :
    FollowsChecks s
      ((d.cond && badPair s d.z.toNat, 12, d.z.toNat) :: (d.cond && badFit s d.z.toNat 0, 12, d.z.toNat) :: cs)
      (checkAxisZones d c >>= g) := by
  rw [← hsome]
  cases c with
  | none => exact hrest
  | some k =>
    rw [checkAxisZones, bind_assoc]
    exact follows_checkZonesPair (hc k rfl) (follows_checkZonesFit (hc k rfl) hnative hrest)

/-- Where any range register exists, `RANGE[0]` does, and it is the native range (10_state.md R28). -/
theorem rangeEntry_zero {r : Nat} {x : AxisRange} (h : rangeEntry s r = some x) :
    rangeEntry s 0 = some nativeRange := by
  have hr : r < s.cfg.nrange := by
    by_contra hr
    simp [rangeEntry, hr] at h
  simp [rangeEntry, Nat.zero_lt_of_lt hr]

/-! The commands. -/

/-- Every command makes the checks of its row of 60_exceptions.md R233, in the row's order. -/
theorem exec_follows_commandChecks (i : Instr) (s : State) :
    ∃ x, exec i s = finish (encode i) s x ∧ FollowsChecks s (commandChecks s i) x := by
  cases i with
  | getb n => exact ⟨_, rfl, follows_maskedByte n _⟩
  | getu8 n => exact ⟨_, rfl, follows_maskedByte n _⟩
  | gets16 lo hi =>
    refine ⟨_, rfl, ?_⟩
    refine follows_requireEntry rfl fun l hl => ?_
    refine follows_requireEntry rfl fun h hh => ?_
    refine follows_checkReport fun hv => ?_
    refine follows_checkSpecLayout hl fun hlo => ?_
    refine follows_checkSpecLayout hh fun hhi => ?_
    refine follows_checkDistinct hl hh ?_
    intro hinv
    obtain ⟨v, hshort⟩ := sShort_of_inv hinv hv hlo hhi
    exact ⟨_, by rw [hshort]; rfl⟩
  | dzf src z =>
    refine ⟨_, rfl, ?_⟩
    refine follows_requireEntry rfl fun c hc => ?_
    refine follows_operand fun w hw => ?_
    refine follows_checkZonesPair hc ?_
    refine follows_checkS16 hw ?_
    exact fun _ => ⟨_, rfl⟩
  | satc src z rs => exact ⟨_, rfl, follows_conditioned src z rs _⟩
  | cond src z rs => exact ⟨_, rfl, follows_conditioned src z rs _⟩
  | xlat src rs rt =>
    refine ⟨_, rfl, ?_⟩
    refine follows_requireEntry rfl fun a ha => ?_
    refine follows_requireEntry rfl fun b hb => ?_
    refine follows_operand fun w hw => ?_
    refine follows_checkRange ha ?_
    refine follows_checkRange hb ?_
    refine follows_require rfl ?_ fun _ _ => ⟨_, rfl⟩
    simp [overflows, onEntry, ha, hb, hw, fitsS32_iff]
  | axis a rt =>
    refine ⟨_, rfl, ?_⟩
    cases hd : axisEntry s a with
    | none =>
      simp only [commandChecks, hd]
      exact ⟨.axisIndex, rfl, rfl⟩
    | some d =>
      simp only [commandChecks, hd, requireEntry_some, bind_ok]
      refine follows_requireEntry rfl fun t ht => ?_
      refine follows_requireEntry rfl fun l hl => ?_
      refine follows_requireEntry rfl fun h hh => ?_
      refine follows_axisZones fun c hsome hc => ?_
      refine follows_checkReport fun hv => ?_
      refine follows_checkSpecLayout hl fun hlo => ?_
      refine follows_checkSpecLayout hh fun hhi => ?_
      refine follows_checkDistinct hl hh ?_
      refine follows_checkRange ht ?_
      refine follows_checkAxisZones hsome hc (rangeEntry_zero ht) ?_
      intro hinv
      obtain ⟨v, hshort⟩ := sShort_of_inv hinv hv hlo hhi
      exact ⟨_, by rw [hshort]; rfl⟩

/-- A command raises the first failing check of its row, and changes nothing but the record (60_exceptions.md R231). -/
theorem exec_raises_firstFailing {i : Instr} {code : Byte} {info : Nat} (hclear : s.fault = false)
    (hfail : firstFailing (commandChecks s i) = some (code, info)) :
    exec i s = .next (recorded s code info false (encode i)) := by
  obtain ⟨x, hexec, hfollows⟩ := exec_follows_commandChecks i s
  obtain ⟨e, rfl, rfl⟩ := hfollows.raises hfail
  rw [hexec, finish_raises, raise_eq_recorded hclear]

/-- Settles O16: behind the last check of its row the command has a value (`exec_follows_commandChecks`), and it ends by
writing it to `RES`. -/
theorem commandsCompleteWhereNoCheckFails : Obligations.CommandsCompleteWhereNoCheckFails := by
  intro i s hinv hpass
  obtain ⟨x, hexec, hfollows⟩ := exec_follows_commandChecks i s
  obtain ⟨v, rfl⟩ := hfollows.completes hinv hpass
  exact ⟨v, hexec.trans (finish_ok _ _ _)⟩

end Sys2Proof.Claims
end

section
/-! SUPPORT. Decoding and encoding are inverse to each other, and both are the opcode map (30_encoding.md R71 to R79). -/

namespace Sys2Proof.Claims

open Sys2Proof.Machine Sys2Proof.Laws

/-! The fields of a word and the formats R72 to R75: a format's fields are its operands, and a word whose reserved fields
are 0 is put together again from its fields. -/

section Formats

variable {w : Word} {op : Nat}

theorem field_lt (w : Word) (hi lo : Nat) : field w hi lo < 2 ^ (hi + 1 - lo) :=
  Nat.mod_lt _ (by positivity)

theorem field_wordS1 (op : Nat) {s : Nat} (hs : s < 256) : field (wordS1 op s) 7 0 = s := by
  simp only [wordS1, field, BitVec.toNat_ofNat]
  omega

theorem fields_wordS2 (op : Nat) {hi lo : Nat} (hhi : hi < 256) (hlo : lo < 256) :
    field (wordS2 op hi lo) 7 0 = lo ∧ field (wordS2 op hi lo) 15 8 = hi := by
  simp only [wordS2, field, BitVec.toNat_ofNat]
  omega

theorem fields_wordV (op : Nat) (src : Src) {rt rs z : Nat} (hrt : rt < 16) (hrs : rs < 16) (hz : z < 16) :
    srcOf (wordV op src rt rs z) = src ∧ field (wordV op src rt rs z) 3 0 = z ∧
      field (wordV op src rt rs z) 11 8 = rs ∧ field (wordV op src rt rs z) 15 12 = rt := by
  have hsrc : srcBit src ≤ 1 := by cases src <;> decide
  refine ⟨?_, ?_⟩
  · have hbit : field (wordV op src rt rs z) 27 27 = srcBit src := by
      simp only [wordV, field, BitVec.toNat_ofNat]
      omega
    rw [srcOf, hbit]
    cases src <;> rfl
  · simp only [wordV, field, BitVec.toNat_ofNat]
    omega

theorem fields_wordA (op : Nat) {rt a : Nat} (hrt : rt < 16) (ha : a < 16) :
    field (wordA op rt a) 3 0 = a ∧ field (wordA op rt a) 15 12 = rt := by
  simp only [wordA, field, BitVec.toNat_ofNat]
  omega

theorem srcBit_srcOf (w : Word) : srcBit (srcOf w) = field w 27 27 := by
  have hbit := field_lt w 27 27
  rw [srcOf]
  split
  next hzero => exact hzero.symm
  next hone =>
    change 1 = field w 27 27
    omega

theorem wordS1_of_fields (hop : field w 31 28 = op) (hreserved : field w 27 8 = 0) : wordS1 op (field w 7 0) = w := by
  apply BitVec.eq_of_toNat_eq
  simp only [wordS1, field, BitVec.toNat_ofNat] at *
  omega

theorem wordS2_of_fields (hop : field w 31 28 = op) (hreserved : field w 27 16 = 0) :
    wordS2 op (field w 15 8) (field w 7 0) = w := by
  apply BitVec.eq_of_toNat_eq
  simp only [wordS2, field, BitVec.toNat_ofNat] at *
  omega

theorem wordV_of_fields {rt rs z : Nat} (hop : field w 31 28 = op) (hreserved : field w 26 16 = 0)
    (hrt : field w 15 12 = rt) (hrs : field w 11 8 = rs) (hz : field w 7 0 = z) :
    wordV op (srcOf w) rt rs z = w := by
  apply BitVec.eq_of_toNat_eq
  simp only [wordV, srcBit_srcOf, field, BitVec.toNat_ofNat] at *
  omega

/-- The words of SATC and COND, which have no target range. -/
theorem wordV_of_fields_no_target (hop : field w 31 28 = op) (hhigh : field w 26 12 = 0) (hlow : field w 7 4 = 0) :
    wordV op (srcOf w) 0 (field w 11 8) (field w 3 0) = w := by
  simp only [field] at hhigh hlow
  refine wordV_of_fields hop ?_ ?_ rfl ?_ <;> simp only [field] <;> omega

theorem wordA_of_fields (hop : field w 31 28 = op) (hhigh : field w 27 16 = 0) (hlow : field w 11 4 = 0) :
    wordA op (field w 15 12) (field w 3 0) = w := by
  apply BitVec.eq_of_toNat_eq
  simp only [wordA, field, BitVec.toNat_ofNat] at *
  omega

end Formats

/-- A command's word matches the command's row (`EncodedRow`), and the row's fields of the word are the operands. -/
theorem decode_encode {i : Instr} (h : i.wellFormed = true) : decode (encode i) = .ok i := by
  cases i with
  | getb s =>
    have hs : s < 256 := by simpa [Instr.wellFormed] using h
    rw [decode_getb (EncodedRow.getb s h), encode, field_wordS1 _ hs]
  | getu8 s =>
    have hs : s < 256 := by simpa [Instr.wellFormed] using h
    rw [decode_getu8 (EncodedRow.getu8 s h), encode, field_wordS1 _ hs]
  | gets16 lo hi =>
    obtain ⟨hlo, hhi⟩ : lo < 256 ∧ hi < 256 := by simpa [Instr.wellFormed] using h
    obtain ⟨flo, fhi⟩ := fields_wordS2 3 hhi hlo
    rw [decode_gets16 (EncodedRow.gets16 lo hi h), encode, flo, fhi]
  | dzf src z =>
    have hz : z < 16 := by simpa [Instr.wellFormed] using h
    obtain ⟨fsrc, fz, -, -⟩ := fields_wordV 4 src (rt := 0) (rs := 0) (by decide) (by decide) hz
    rw [decode_dzf (EncodedRow.dzf src z h), encode, fsrc, fz]
  | satc src z rs =>
    obtain ⟨hz, hrs⟩ : z < 16 ∧ rs < 16 := by simpa [Instr.wellFormed] using h
    obtain ⟨fsrc, fz, frs, -⟩ := fields_wordV 5 src (rt := 0) (by decide) hrs hz
    rw [decode_satc (EncodedRow.satc src z rs h), encode, fsrc, fz, frs]
  | cond src z rs =>
    obtain ⟨hz, hrs⟩ : z < 16 ∧ rs < 16 := by simpa [Instr.wellFormed] using h
    obtain ⟨fsrc, fz, frs, -⟩ := fields_wordV 6 src (rt := 0) (by decide) hrs hz
    rw [decode_cond (EncodedRow.cond src z rs h), encode, fsrc, fz, frs]
  | xlat src rs rt =>
    obtain ⟨hrs, hrt⟩ : rs < 16 ∧ rt < 16 := by simpa [Instr.wellFormed] using h
    obtain ⟨fsrc, -, frs, frt⟩ := fields_wordV 7 src (z := 0) hrt hrs (by decide)
    rw [decode_xlat (EncodedRow.xlat src rs rt h), encode, fsrc, frs, frt]
  | axis a rt =>
    obtain ⟨ha, hrt⟩ : a < 16 ∧ rt < 16 := by simpa [Instr.wellFormed] using h
    obtain ⟨fa, frt⟩ := fields_wordA 8 hrt ha
    rw [decode_axis (EncodedRow.axis a rt h), encode, fa, frt]

/-- Settles O2: the word of a command matches its row, whose fields are the operands (`decode_encode`). -/
theorem decodeOfEncodeIsTheCommand : Obligations.DecodeOfEncodeIsTheCommand :=
  fun _ h => decode_encode h

/-! The opcode map of the statements, in the words of the decoder. -/

theorem bits_eq_field (w : Word) (lo len : Nat) : bits w lo (len + 1) = field w (lo + len) lo := by
  simp [bits, field, Nat.shiftRight_eq_div_pow, show lo + len + 1 - lo = len + 1 by omega]

theorem srcAt_eq_srcOf (w : Word) : srcAt w = srcOf w := by
  have hbit : w.getLsbD 27 = true ↔ ¬ field w 27 27 = 0 := by
    simp [field, BitVec.getLsbD, Nat.testBit_eq_decide_div_mod_eq]
  simp only [srcAt, srcOf, hbit, ite_not]

theorem opcodeMap_eq (w : Word) : opcodeMap w =
    [⟨rowGETB.pat, rowGETB.mask, .getb (field w 7 0)⟩,
     ⟨rowGETU8.pat, rowGETU8.mask, .getu8 (field w 7 0)⟩,
     ⟨rowGETS16.pat, rowGETS16.mask, .gets16 (field w 7 0) (field w 15 8)⟩,
     ⟨rowDZF.pat, rowDZF.mask, .dzf (srcOf w) (field w 3 0)⟩,
     ⟨rowSATC.pat, rowSATC.mask, .satc (srcOf w) (field w 3 0) (field w 11 8)⟩,
     ⟨rowCOND.pat, rowCOND.mask, .cond (srcOf w) (field w 3 0) (field w 11 8)⟩,
     ⟨rowXLAT.pat, rowXLAT.mask, .xlat (srcOf w) (field w 11 8) (field w 15 12)⟩,
     ⟨rowAXIS.pat, rowAXIS.mask, .axis (field w 3 0) (field w 15 12)⟩] := by
  simp only [opcodeMap, srcAt_eq_srcOf, bits_eq_field]
  rfl

theorem decode_of_hit {w : Word} : ∀ r ∈ opcodeMap w, r.Hit w → decode w = .ok r.command := by
  simp only [opcodeMap_eq, List.forall_mem_cons]
  exact ⟨fun h => decode_getb (rowHits_iff.2 h), fun h => decode_getu8 (rowHits_iff.2 h),
    fun h => decode_gets16 (rowHits_iff.2 h), fun h => decode_dzf (rowHits_iff.2 h),
    fun h => decode_satc (rowHits_iff.2 h), fun h => decode_cond (rowHits_iff.2 h),
    fun h => decode_xlat (rowHits_iff.2 h), fun h => decode_axis (rowHits_iff.2 h), nofun⟩

theorem decode_of_no_hit {w : Word} (h : ∀ r ∈ opcodeMap w, ¬ r.Hit w) : ∃ e, decode w = .error e := by
  simp only [opcodeMap_eq, List.forall_mem_cons, MapRow.Hit, ← rowHits_iff] at h
  obtain ⟨hgetb, hgetu8, hgets16, hdzf, hsatc, hcond, hxlat, haxis, -⟩ := h
  simp only [decode, hgetb, hgetu8, hgets16, hdzf, hsatc, hcond, hxlat, haxis]
  by_cases hop : field w 31 28 = 0 ∨ 9 ≤ field w 31 28
  · exact ⟨.illegalOpcode, by simp [hop]⟩
  · exact ⟨.reservedBit, by simp [hop]⟩

/-- 30_encoding.md R78: decoding is the opcode map. -/
theorem decode_eq_ok_iff {w : Word} {i : Instr} :
    decode w = .ok i ↔ ∃ r ∈ opcodeMap w, r.Hit w ∧ r.command = i := by
  constructor
  · intro hdecode
    by_contra hnone
    obtain ⟨e, he⟩ := decode_of_no_hit fun r hr hhit =>
      hnone ⟨r, hr, hhit, Except.ok.inj ((decode_of_hit r hr hhit).symm.trans hdecode)⟩
    simp [he] at hdecode
  · rintro ⟨r, hr, hhit, rfl⟩
    exact decode_of_hit r hr hhit

theorem opcodeMap_wellFormed {w : Word} : ∀ r ∈ opcodeMap w, r.command.wellFormed = true := by
  have hbyte (lo : Nat) : field w (lo + 7) lo < 256 := by
    simpa [show lo + 7 + 1 - lo = 8 by omega] using field_lt w (lo + 7) lo
  have hnibble (lo : Nat) : field w (lo + 3) lo < 16 := by
    simpa [show lo + 3 + 1 - lo = 4 by omega] using field_lt w (lo + 3) lo
  simp [opcodeMap_eq, Instr.wellFormed, hbyte 0, hbyte 8, hnibble 0, hnibble 8, hnibble 12]

/-- The match and the mask of a row fix every bit of the word that is not an operand's. -/
theorem encode_of_hit {w : Word} : ∀ r ∈ opcodeMap w, r.Hit w → encode r.command = w := by
  simp only [opcodeMap_eq, List.forall_mem_cons, MapRow.Hit, ← rowHits_iff, rowHits_getb_iff, rowHits_getu8_iff,
    rowHits_gets16_iff, rowHits_dzf_iff, rowHits_satc_iff, rowHits_cond_iff, rowHits_xlat_iff, rowHits_axis_iff]
  refine ⟨?getb, ?getu8, ?gets16, ?dzf, ?satc, ?cond, ?xlat, ?axis, nofun⟩
  case getb => exact fun ⟨hop, hreserved⟩ => wordS1_of_fields hop hreserved
  case getu8 => exact fun ⟨hop, hreserved⟩ => wordS1_of_fields hop hreserved
  case gets16 => exact fun ⟨hop, hreserved⟩ => wordS2_of_fields hop hreserved
  case dzf =>
    rintro ⟨hop, hreserved⟩
    simp only [field] at hreserved
    refine wordV_of_fields hop ?_ ?_ ?_ ?_ <;> simp only [field] <;> omega
  case satc => exact fun ⟨hop, hhigh, hlow⟩ => wordV_of_fields_no_target hop hhigh hlow
  case cond => exact fun ⟨hop, hhigh, hlow⟩ => wordV_of_fields_no_target hop hhigh hlow
  case xlat => exact fun ⟨hop, hhigh, hlow⟩ => wordV_of_fields hop hhigh rfl rfl hlow
  case axis => exact fun ⟨hop, hhigh, hlow⟩ => wordA_of_fields hop hhigh hlow

/-- Settles O3: the word matches a row (`decode_eq_ok_iff`), whose command has its operands in the row's fields
(`opcodeMap_wellFormed`) and the word itself as its word (`encode_of_hit`). -/
theorem encodeOfDecodeIsTheWord : Obligations.EncodeOfDecodeIsTheWord := by
  intro w i hdecode
  obtain ⟨r, hr, hhit, rfl⟩ := decode_eq_ok_iff.1 hdecode
  exact ⟨opcodeMap_wellFormed r hr, encode_of_hit r hr hhit⟩

/-! Each row's mask covers the opcode and the reserved bits of the row's format, and its match has all reserved bits 0. -/

theorem opcodeMap_masks {w : Word} : ∀ r ∈ opcodeMap w,
    field r.mask 31 28 = 15 ∧ (1 ≤ field r.code 31 28 ∧ field r.code 31 28 ≤ 8) ∧
      r.mask &&& reservedBits (field r.code 31 28) = reservedBits (field r.code 31 28) ∧
      r.code &&& reservedBits (field r.code 31 28) = 0 := by
  simp only [opcodeMap, List.forall_mem_cons]
  exact ⟨by decide, by decide, by decide, by decide, by decide, by decide, by decide, by decide, nofun⟩

theorem opcode_of_hit {w : Word} {r : MapRow} (hr : r ∈ opcodeMap w) (hhit : r.Hit w) :
    field w 31 28 = field r.code 31 28 := by
  obtain ⟨hmask, -, -, -⟩ := opcodeMap_masks r hr
  rw [← hhit, field_and_ones hmask]

/-- A word has at most one row that it can match: the one in the opcode's place. -/
theorem opcodeMap_get_of_hit {w : Word} {r : MapRow} (hr : r ∈ opcodeMap w) (hhit : r.Hit w) :
    (opcodeMap w)[field w 31 28 - 1]? = some r := by
  rw [opcode_of_hit hr hhit]
  revert r
  simp only [opcodeMap, List.forall_mem_cons]
  exact ⟨fun _ => rfl, fun _ => rfl, fun _ => rfl, fun _ => rfl, fun _ => rfl, fun _ => rfl, fun _ => rfl,
    fun _ => rfl, nofun⟩

/-- Issuing a word of no row raises `ILLEGAL_CMD(0)` (30_encoding.md R78, 44_host_interface.md R209). -/
theorem step_issue_no_hit {s : State} {w : Word} {rest : List Txn} (hs : s.script = .issue w :: rest)
    (hclear : s.fault = false) (h : ∀ r ∈ opcodeMap w, ¬ r.Hit w) :
    step s = .next (recorded { s with script := rest } 1 0 false w) := by
  obtain ⟨e, he⟩ := decode_of_no_hit h
  exact (step_cons hs).trans (issue_illegal exec hclear he)

/-- Settles O4: the decoder is the opcode map (`decode_eq_ok_iff`), a word's opcode picks its only row
(`opcodeMap_get_of_hit`), and a word of no row does not decode (`step_issue_no_hit`). -/
theorem decodingIsTheRowThatMatches : Obligations.DecodingIsTheRowThatMatches := by
  refine ⟨fun w i => decode_eq_ok_iff, fun w r q hr hq hrhit hqhit => ?_, fun s w rest hs hclear h => ?_⟩
  · exact Option.some.inj ((opcodeMap_get_of_hit hr hrhit).symm.trans (opcodeMap_get_of_hit hq hqhit))
  · exact step_issue_no_hit hs hclear h

/-- A word that matches a row has a legal opcode and no reserved bit set (30_encoding.md R79). -/
theorem legal_of_hit {w : Word} {r : MapRow} (hr : r ∈ opcodeMap w) (hhit : r.Hit w) :
    (1 ≤ field w 31 28 ∧ field w 31 28 ≤ 8) ∧ w &&& reservedBits (field w 31 28) = 0 := by
  obtain ⟨-, hlegal, hcovers, hzero⟩ := opcodeMap_masks r hr
  rw [opcode_of_hit hr hhit]
  exact ⟨hlegal, by rw [← hcovers, ← BitVec.and_assoc, hhit, hzero]⟩

/-- Settles O5: a word with an illegal opcode or a reserved bit set matches no row (`legal_of_hit`). -/
theorem illegalWordsRaiseIllegalCmd : Obligations.IllegalWordsRaiseIllegalCmd := by
  intro s w rest hs hclear hillegal
  refine step_issue_no_hit hs hclear fun r hr hhit => ?_
  have hop : field w 31 28 = w.toNat / 2 ^ 28 := Nat.mod_eq_of_lt (by omega)
  obtain ⟨⟨hone, height⟩, hreserved⟩ := legal_of_hit hr hhit
  rw [hop] at hone height hreserved
  rcases hillegal with hlow | hhigh | hbit
  · omega
  · omega
  · exact hbit hreserved

/-- Settles O1: each sample is the word of its command, so it decodes to it (`decode_encode`). -/
theorem sampleWordsDecode : Obligations.SampleWordsDecode :=
  ⟨decode_encode (i := .getb 5) rfl, decode_encode (i := .getu8 0x12) rfl, decode_encode (i := .gets16 1 2) rfl,
    decode_encode (i := .dzf .arg 1) rfl, decode_encode (i := .satc .res 0 0) rfl,
    decode_encode (i := .cond .arg 2 0) rfl, decode_encode (i := .xlat .arg 2 1) rfl,
    decode_encode (i := .axis 3 2) rfl⟩

end Sys2Proof.Claims
end

section
/-! SUPPORT. The family of report decoding (40_report_decode.md): what GETB, GETU8 and GETS16 give, and the laws of R106. -/

namespace Sys2Proof.Claims

open Sys2Proof.Machine

variable {s u : State} {cmd : Word}

/-! A command's value behind its checks. -/

/-- A command that maps what its checks have found to its value, and ends without a fault, has found it and writes that
value. -/
theorem finish_map_clear {α : Type} {x : Except Stop α} {f : α → Word}
    (h : finish cmd s (x >>= fun a => .ok (f a)) = .next u) (hs : s.fault = false) (hu : u.fault = false) :
    ∃ a, x = .ok a ∧ u = setRes s (f a) := by
  obtain ⟨v, hv, rfl⟩ := finish_clear h hs hu
  obtain ⟨a, ha, hfa⟩ := bind_eq_ok.1 hv
  obtain rfl : f a = v := by simpa using hfa
  exact ⟨a, ha, rfl⟩

/-! GETB and GETU8 share their checks and their masked byte (40_report_decode.md R102, R103). -/

theorem exec_getb (i : Nat) (s : State) :
    exec (.getb i) s = finish (encode (.getb i)) s (maskedByte s i >>= fun m => .ok (if m != 0 then 1 else 0)) := rfl

theorem exec_getu8 (i : Nat) (s : State) :
    exec (.getu8 i) s = finish (encode (.getu8 i)) s (maskedByte s i >>= fun m => .ok (m.zeroExtend 32)) := rfl

theorem maskedByte_of_readable {i : Nat} {e : ButtonSpec} {b : Byte} (he : specEntry s i = some e)
    (hv : s.rptV = true) (hb : Readable s e b) : maskedByte s i = .ok (b &&& e.mask) := by
  obtain ⟨hmask, hoff, hbyte⟩ := hb
  exact maskedByte_eq_ok.2 ⟨e, b, he, hv, hmask, hoff, hbyte, rfl⟩

/-- Settles O7: the masked byte is read (`maskedByte_of_readable`), and the value tests it for 0. -/
theorem getbCompletes : Obligations.GetbCompletes := by
  intro i s e b he hv hb
  rw [exec_getb, maskedByte_of_readable he hv hb, bind_ok, finish_ok]
  by_cases hzero : b &&& e.mask = 0 <;> simp [setRes, hzero]

/-- Settles O8: the masked byte is read (`maskedByte_of_readable`), and the value is its zero extension. -/
theorem getu8Completes : Obligations.Getu8Completes := by
  intro i s e b he hv hb
  rw [exec_getu8, maskedByte_of_readable he hv hb, bind_ok, finish_ok]
  rfl

/-- A byte is 0 exactly where its zero extension is. -/
theorem byte_setWidth_eq_zero_iff (m : Byte) : m.setWidth 32 = 0#32 ↔ m = 0#8 := by
  bv_omega

/-- Settles O22: both results are of one masked byte, which is 0 exactly where its zero extension is
(`byte_setWidth_eq_zero_iff`). -/
theorem getbIsOneExactlyWhereGetu8IsNotZero : Obligations.GetbIsOneExactlyWhereGetu8IsNotZero := by
  intro i s u v hs hgetb hgetu8 hu hv
  rw [exec_getb] at hgetb
  rw [exec_getu8] at hgetu8
  obtain ⟨m, hm, rfl⟩ := finish_map_clear hgetb hs hu
  obtain ⟨m', hm', rfl⟩ := finish_map_clear hgetu8 hs hv
  obtain rfl : m = m' := Except.ok.inj (hm.symm.trans hm')
  simp [byte_setWidth_eq_zero_iff]

/-! GETS16 (40_report_decode.md R104, R105). -/

/-- The checks of GETS16 in their order, and the signed short behind them. -/
def checkedShort (s : State) (lo hi : Nat) : Except Stop Int := do
  let l ← checkSpecIndex s lo
  let h ← checkSpecIndex s hi
  checkReport s
  checkSpecLayout s lo l
  checkSpecLayout s hi h
  checkDistinct lo l h
  sShort s l h

theorem exec_gets16 (lo hi : Nat) (s : State) :
    exec (.gets16 lo hi) s =
      finish (encode (.gets16 lo hi)) s (checkedShort s lo hi >>= fun v => .ok (toWord v)) := by
  simp only [exec, execGets16, checkedShort, bind_assoc, pure_ok]

/-- The signed short is the high masked byte above the low one. -/
theorem sShort_eq_shortOf {l h : ButtonSpec} {bl bh : Byte} (hbl : reportByte s.rpt l.off.toNat = some bl)
    (hbh : reportByte s.rpt h.off.toNat = some bh) : sShort s l h = .ok (shortOf h l bh bl).toInt :=
  sShort_eq_ok.2 ⟨bh, bl, hbh, hbl, signedShort_eq_append _ _⟩

theorem checkedShort_eq_ok {lo hi : Nat} {v : Int} :
    checkedShort s lo hi = .ok v ↔ ∃ l h bl bh, specEntry s lo = some l ∧ specEntry s hi = some h ∧ s.rptV = true ∧
      Readable s l bl ∧ Readable s h bh ∧ l.off ≠ h.off ∧ v = (shortOf h l bh bl).toInt := by
  simp only [checkedShort, bind_eq_ok, checkSpecIndex_eq_ok, checkReport_eq_ok, checkSpecLayout_eq_ok,
    checkDistinct_eq_ok]
  constructor
  · rintro ⟨l, hl, h, hh, _, hv, _, ⟨hlm, hlo⟩, _, ⟨hhm, hho⟩, _, hne, hshort⟩
    obtain ⟨bh, bl, hbh, hbl, rfl⟩ := sShort_eq_ok.1 hshort
    exact ⟨l, h, bl, bh, hl, hh, hv, ⟨hlm, hlo, hbl⟩, ⟨hhm, hho, hbh⟩, hne, signedShort_eq_append _ _⟩
  · rintro ⟨l, h, bl, bh, hl, hh, hv, ⟨hlm, hlo, hbl⟩, ⟨hhm, hho, hbh⟩, hne, rfl⟩
    exact ⟨l, hl, h, hh, (), hv, (), ⟨hlm, hlo⟩, (), ⟨hhm, hho⟩, (), hne, sShort_eq_shortOf hbl hbh⟩

/-- Settles O9: every check passes and yields the signed short (`checkedShort_eq_ok`), which `RES` holds as its sign
extension (`toWord_short`). -/
theorem gets16Completes : Obligations.Gets16Completes := by
  intro lo hi s l h bl bh hl hh hv hbl hbh hne
  have hshort : checkedShort s lo hi = .ok (shortOf h l bh bl).toInt :=
    checkedShort_eq_ok.2 ⟨l, h, bl, bh, hl, hh, hv, hbl, hbh, hne, rfl⟩
  rw [exec_gets16, hshort, bind_ok, finish_ok, toWord_short]
  rfl

/-! An all-zero report (40_report_decode.md R106 item 2). -/

/-- Every byte that the report holds is 0. -/
abbrev AllZero (s : State) : Prop := ∀ k b, reportByte s.rpt k = some b → b = 0

theorem maskedByte_eq_zero (hzero : AllZero s) {i : Nat} {m : Byte} (hm : maskedByte s i = .ok m) : m = 0 := by
  obtain ⟨e, b, -, -, -, -, hbyte, rfl⟩ := maskedByte_eq_ok.1 hm
  rw [hzero _ b hbyte]
  exact BitVec.zero_and

theorem checkedShort_eq_zero (hzero : AllZero s) {lo hi : Nat} {v : Int} (hv : checkedShort s lo hi = .ok v) : v = 0 := by
  obtain ⟨l, h, bl, bh, -, -, -, ⟨-, -, hbl⟩, ⟨-, -, hbh⟩, -, rfl⟩ := checkedShort_eq_ok.1 hv
  rw [hzero _ bl hbl, hzero _ bh hbh]
  simp [shortOf]

/-- Settles O23: the masked byte of GETB and GETU8 is 0 (`maskedByte_eq_zero`), and so is the signed short of GETS16
(`checkedShort_eq_zero`). -/
theorem allZeroReportDecodesToZero : Obligations.AllZeroReportDecodesToZero := by
  intro s u i hzero hi hs hexec hu
  rcases hi with ⟨n, rfl⟩ | ⟨n, rfl⟩ | ⟨lo, hi, rfl⟩
  · rw [exec_getb] at hexec
    obtain ⟨m, hm, rfl⟩ := finish_map_clear hexec hs hu
    simp [maskedByte_eq_zero hzero hm]
  · rw [exec_getu8] at hexec
    obtain ⟨m, hm, rfl⟩ := finish_map_clear hexec hs hu
    simp [maskedByte_eq_zero hzero hm]
  · rw [exec_gets16] at hexec
    obtain ⟨v, hv, rfl⟩ := finish_map_clear hexec hs hu
    simp [checkedShort_eq_zero hzero hv]

end Sys2Proof.Claims
end

section
/-! SUPPORT. The family of axis conditioning (41_axis_conditioning.md): what DZF, SATC and COND give, and the laws of R139. -/

namespace Sys2Proof.Claims

open Sys2Proof.Machine

variable {s : State} {src : Src} {z rs : Nat} {v : Int} {c : ConditioningZones} {r : AxisRange}

/-! The three functions of R133 to R135 on integers. -/

theorem deadZone_eq_zero_or_self (v : Int) (dz : Nat) : deadZone v dz = 0 ∨ deadZone v dz = v := by
  unfold deadZone
  split
  · exact .inl rfl
  · exact .inr rfl

/-- The dead-zone test first, and then the saturation: 0 lies in no max zone. -/
theorem condition_eq_saturate_deadZone (v : Int) (dz mz : Nat) (m : Int) :
    condition v dz mz m = saturate (deadZone v dz) mz m := by
  unfold condition deadZone
  split
  · simp [saturate]
  · rfl

/-- A saturated value is the boundary, its negation, or a value that the max zone does not exceed. -/
theorem natAbs_saturate_le (v : Int) (mz : Nat) (m : Int) : (saturate v mz m).natAbs ≤ max mz m.natAbs := by
  unfold saturate
  split_ifs <;> omega

theorem natAbs_condition_le (v : Int) (dz mz : Nat) (m : Int) : (condition v dz mz m).natAbs ≤ max mz m.natAbs :=
  condition_eq_saturate_deadZone v dz mz m ▸ natAbs_saturate_le _ mz m

/-! The same functions on the words that the registers hold. -/

/-- An s16 value is kept by the register. -/
theorem toInt_toWord_of_s16 (hlo : -32768 ≤ v) (hhi : v ≤ 32767) : (toWord v).toInt = v :=
  toInt_toWord (fitsS32_iff.2 ⟨by omega, by omega⟩)

theorem toWord_deadZone (w : Word) (dz : Nat) :
    toWord (deadZone w.toInt dz) = if w.toInt.natAbs < dz then 0 else w := by
  simp [deadZone, apply_ite toWord]

theorem toWord_saturate (w : Word) (mz : Nat) (m : Word) :
    toWord (saturate w.toInt mz m.toInt) =
      if mz < w.toInt.natAbs then (if 0 ≤ w.toInt then m else -m) else w := by
  simp [saturate, apply_ite toWord, toWord_neg]

theorem toWord_condition (w : Word) (dz mz : Nat) (m : Word) :
    toWord (condition w.toInt dz mz m.toInt) =
      if w.toInt.natAbs < dz then 0 else if mz < w.toInt.natAbs then (if 0 ≤ w.toInt then m else -m) else w := by
  simp [condition, apply_ite toWord, toWord_neg]

/-! The commands' checks in the words of the statements. -/

theorem operand_of_valueReg {w : Word} (h : valueReg s src = some w) : operand s src = .ok w.toInt := by
  cases src with
  | res => exact operand_res h
  | arg => exact operand_arg h

/-- The checks of DZF in their order, and what they have found. -/
def zoned (s : State) (src : Src) (z : Nat) : Except Stop (Int × ConditioningZones) := do
  let c ← checkZonesIndex s z
  let v ← operand s src
  checkZonesPair z c
  checkS16 v src
  return (v, c)

theorem zoned_eq_ok :
    zoned s src z = .ok (v, c) ↔ zonesEntry s z = some c ∧ operand s src = .ok v ∧ c.dz.toNat < c.mz.toNat ∧
      -32768 ≤ v ∧ v ≤ 32767 := by
  simp only [zoned, bind_eq_ok, checkZonesIndex_eq_ok, checkZonesPair_eq_ok, checkS16_eq_ok, pure_ok,
    Except.ok.injEq, Prod.mk.injEq]
  constructor
  · rintro ⟨c', hc, v', hv, _, hpair, _, hs16, rfl, rfl⟩
    exact ⟨hc, hv, hpair, hs16⟩
  · rintro ⟨hc, hv, hpair, hs16⟩
    exact ⟨c, hc, v, hv, (), hpair, (), hs16, rfl, rfl⟩

theorem conditioned_of_conditionable {w : Word} (hc : zonesEntry s z = some c) (hr : rangeEntry s rs = some r)
    (hw : valueReg s src = some w) (h : Conditionable c r w) : conditioned s src z rs = .ok (w.toInt, c, r) := by
  obtain ⟨hrange, hpair, hfit, hs16⟩ := h
  exact conditioned_eq_ok.2 ⟨hc, hr, operand_of_valueReg hw, hrange, hpair, lt_max_iff.2 hfit, hs16⟩

/-! The commands are their checks and then one function of what these have found (R136 to R138). -/

theorem exec_dzf (src : Src) (z : Nat) (s : State) :
    exec (.dzf src z) s =
      finish (encode (.dzf src z)) s (zoned s src z >>= fun x => .ok (toWord (deadZone x.1 x.2.dz.toNat))) := by
  simp only [exec, execDzf, zoned, bind_assoc, pure_ok, bind_ok]

theorem exec_satc (src : Src) (z rs : Nat) (s : State) :
    exec (.satc src z rs) s =
      finish (encode (.satc src z rs)) s
        (conditioned s src z rs >>= fun x => .ok (toWord (saturate x.1 x.2.1.mz.toNat x.2.2.max.toInt))) := rfl

theorem exec_cond (src : Src) (z rs : Nat) (s : State) :
    exec (.cond src z rs) s =
      finish (encode (.cond src z rs)) s (conditioned s src z rs >>= fun x =>
        .ok (toWord (condition x.1 x.2.1.dz.toNat x.2.1.mz.toNat x.2.2.max.toInt))) := rfl

theorem exec_dzf_of_zoned (h : zoned s src z = .ok (v, c)) :
    exec (.dzf src z) s = .next (setRes s (toWord (deadZone v c.dz.toNat))) := by
  rw [exec_dzf, h, bind_ok, finish_ok]

theorem exec_satc_of_conditioned (h : conditioned s src z rs = .ok (v, c, r)) :
    exec (.satc src z rs) s = .next (setRes s (toWord (saturate v c.mz.toNat r.max.toInt))) := by
  rw [exec_satc, h, bind_ok, finish_ok]

theorem exec_cond_of_conditioned (h : conditioned s src z rs = .ok (v, c, r)) :
    exec (.cond src z rs) s = .next (setRes s (toWord (condition v c.dz.toNat c.mz.toNat r.max.toInt))) := by
  rw [exec_cond, h, bind_ok, finish_ok]

/-- A COND that ends without a fault has passed its checks, and writes the conditioned operand. -/
theorem cond_clear {u : State} (h : exec (.cond src z rs) s = .next u) (hs : s.fault = false)
    (hu : u.fault = false) :
    ∃ v c r, conditioned s src z rs = .ok (v, c, r) ∧
      u = setRes s (toWord (condition v c.dz.toNat c.mz.toNat r.max.toInt)) := by
  rw [exec_cond] at h
  obtain ⟨⟨v, c, r⟩, hfound, hval⟩ := finish_map_clear h hs hu
  exact ⟨v, c, r, hfound, hval⟩

/-! The results of R133 to R135. -/

/-- Settles O10: the checks pass (`zoned_eq_ok`), and `toWord_deadZone` is the value as a word. -/
theorem dzfCompletes : Obligations.DzfCompletes := by
  intro src z s c w hc hw hpair hlo hhi
  have hfound : zoned s src z = .ok (w.toInt, c) := zoned_eq_ok.2 ⟨hc, operand_of_valueReg hw, hpair, hlo, hhi⟩
  rw [exec_dzf_of_zoned hfound, toWord_deadZone]
  rfl

/-- Settles O11: the checks pass (`conditioned_of_conditionable`), and `toWord_saturate` is the value as a word. -/
theorem satcCompletes : Obligations.SatcCompletes := by
  intro src z rs s c r w hc hr hw h
  rw [exec_satc_of_conditioned (conditioned_of_conditionable hc hr hw h), toWord_saturate]
  rfl

/-- Settles O12: the checks pass (`conditioned_of_conditionable`), and `toWord_condition` is the value as a word. -/
theorem condCompletes : Obligations.CondCompletes := by
  intro src z rs s c r w hc hr hw h
  rw [exec_cond_of_conditioned (conditioned_of_conditionable hc hr hw h), toWord_condition]
  rfl

/-! The laws of R139. -/

/-- DZF makes a part of the checks of SATC and COND. -/
theorem zoned_of_conditioned (h : conditioned s src z rs = .ok (v, c, r)) : zoned s src z = .ok (v, c) := by
  obtain ⟨hc, -, hv, -, hpair, -, hs16⟩ := conditioned_eq_ok.1 h
  exact zoned_eq_ok.2 ⟨hc, hv, hpair, hs16⟩

/-- What passes the checks passes them again on `RES` once its dead zone is zeroed: the entries are as before, and 0 is an
s16 too. -/
theorem conditioned_res_deadZone (h : conditioned s src z rs = .ok (v, c, r)) (dz : Nat) :
    conditioned (setRes s (toWord (deadZone v dz))) .res z rs = .ok (deadZone v dz, c, r) := by
  obtain ⟨hc, hr, -, hrange, hpair, hfit, hlo, hhi⟩ := conditioned_eq_ok.1 h
  obtain ⟨hlo', hhi'⟩ : -32768 ≤ deadZone v dz ∧ deadZone v dz ≤ 32767 := by
    rcases deadZone_eq_zero_or_self v dz with hzero | hself <;> omega
  have hv : operand (setRes s (toWord (deadZone v dz))) .res = .ok (deadZone v dz) := by
    rw [operand_res (setRes_res s _), toInt_toWord_of_s16 hlo' hhi']
  exact conditioned_eq_ok.2 ⟨hc, hr, hv, hrange, hpair, hfit, hlo', hhi'⟩

/-- Settles O24: DZF passes with COND's checks (`zoned_of_conditioned`) and leaves a `RES` on which SATC passes too
(`conditioned_res_deadZone`); the two values are one by `condition_eq_saturate_deadZone`. -/
theorem condIsDzfThenSatc : Obligations.CondIsDzfThenSatc := by
  intro src z rs s u hs hexec hu
  obtain ⟨v, c, r, hfound, rfl⟩ := cond_clear hexec hs hu
  refine ⟨_, exec_dzf_of_zoned (zoned_of_conditioned hfound), hs, ?_⟩
  rw [exec_satc_of_conditioned (conditioned_res_deadZone hfound _), condition_eq_saturate_deadZone]
  rfl

/-- Settles O25: the result's magnitude exceeds neither the max zone nor 32767 (`natAbs_condition_le`), and zones that fit
the native range have their max zone below 32768. -/
theorem condOnTheNativeRangeNeverYieldsMinimum : Obligations.CondOnTheNativeRangeNeverYieldsMinimum := by
  intro src z s u hs hexec hu
  obtain ⟨v, c, r, hfound, rfl⟩ := cond_clear hexec hs hu
  obtain ⟨-, hr, -, -, -, hfit, -, -⟩ := conditioned_eq_ok.1 hfound
  obtain rfl : nativeRange = r := Option.some.inj ((rangeEntry_zero hr).symm.trans hr)
  have hbound := natAbs_condition_le v c.dz.toNat c.mz.toNat nativeRange.max.toInt
  rw [native_min, native_max] at hfit
  rw [native_max] at hbound ⊢
  refine ⟨_, rfl, ?_⟩
  rw [toInt_toWord_of_s16 (by omega) (by omega)]
  omega

end Sys2Proof.Claims
end

section
/-! SUPPORT. Truncation (00_scope.md R11) and the rounding of BINARY64 (42_range_mapping.md R164) over the rationals: the
model's fractions stand for rational numbers, and both operations are monotone and exact on the integers that matter. -/

namespace Sys2Proof.Claims

open Sys2Proof.Machine

/-! Truncation. -/

/-- Truncation toward zero (00_scope.md R11). -/
def truncate (x : ℚ) : Int := if 0 ≤ x then ⌊x⌋ else ⌈x⌉

@[simp] theorem truncate_intCast (k : Int) : truncate k = k := by
  simp [truncate]

theorem truncate_mono {x y : ℚ} (h : x ≤ y) : truncate x ≤ truncate y := by
  unfold truncate
  split_ifs with hx hy hy
  · exact Int.floor_mono h
  · exact absurd (hx.trans h) hy
  · have hceil : ⌈x⌉ ≤ 0 := Int.ceil_le.2 (by simpa using (not_le.1 hx).le)
    exact hceil.trans (Int.floor_nonneg.2 hy)
  · exact Int.ceil_mono h

/-- The model's truncating division is the truncated quotient. -/
theorem tdiv_eq_truncate (n : Int) {d : Int} (hd : 0 < d) : n.tdiv d = truncate ((n : ℚ) / d) := by
  lift d to Nat using hd.le
  have hd' : (0 : ℚ) < d := by exact_mod_cast hd
  rcases le_or_gt 0 n with hn | hn
  · have hquot : (0 : ℚ) ≤ n / d := div_nonneg (by exact_mod_cast hn) hd'.le
    rw [truncate, Int.cast_natCast, if_pos hquot, Rat.floor_intCast_div_natCast, Int.tdiv_eq_ediv_of_nonneg hn]
  · have hquot : ¬ (0 : ℚ) ≤ n / d := not_le.2 (div_neg_of_neg_of_pos (by exact_mod_cast hn) hd')
    rw [truncate, Int.cast_natCast, if_neg hquot, Rat.ceil_intCast_div_natCast,
      ← Int.tdiv_eq_ediv_of_nonneg (by omega), Int.neg_tdiv, neg_neg]

/-! Rounding to the nearest integer. -/

/-- `m` is the integer nearest `x`, and the even one of two nearest. -/
structure NearestEven (x : ℚ) (m : Int) : Prop where
  lower : m - 1 / 2 ≤ x
  upper : x ≤ m + 1 / 2
  even : x = m - 1 / 2 ∨ x = m + 1 / 2 → Even m

theorem nearestEven_iff_abs {x : ℚ} {m : Int} :
    NearestEven x m ↔ |x - m| ≤ 1 / 2 ∧ (|x - m| = 1 / 2 → Even m) := by
  have htie : |x - m| = 1 / 2 ↔ x = m - 1 / 2 ∨ x = m + 1 / 2 := by
    rw [abs_eq (by norm_num), or_comm, sub_eq_iff_eq_add, sub_eq_iff_eq_add, neg_add_eq_sub, add_comm (1 / 2 : ℚ)]
  rw [htie, abs_le, sub_le_iff_le_add', neg_le_sub_iff_le_add]
  constructor
  · rintro ⟨hlower, hupper, heven⟩
    exact ⟨⟨by linarith, hupper⟩, heven⟩
  · rintro ⟨⟨hlower, hupper⟩, heven⟩
    exact ⟨by linarith, hupper, heven⟩

theorem nearestEven_of_eq {x : ℚ} {k : Int} (h : x = k) : NearestEven x k where
  lower := by linarith
  upper := by linarith
  even := by rintro (h | h) <;> linarith

theorem NearestEven.neg {x : ℚ} {m : Int} (h : NearestEven x m) : NearestEven (-x) (-m) where
  lower := by push_cast; linarith [h.upper]
  upper := by push_cast; linarith [h.lower]
  even := by
    push_cast
    rintro (htie | htie)
    · exact (h.even (.inr (by linarith))).neg
    · exact (h.even (.inl (by linarith))).neg

/-- A greater number never has a smaller nearest integer: two that cross would both be ties of one number, and so two even
integers one apart. -/
theorem NearestEven.mono {x y : ℚ} {m k : Int} (hx : NearestEven x m) (hy : NearestEven y k) (hxy : x ≤ y) : m ≤ k := by
  by_contra! hlt
  have hstep : (k : ℚ) + 1 ≤ m := by exact_mod_cast hlt
  have hxl := hx.lower
  have hyu := hy.upper
  have hm : Even m := hx.even (.inl (by linarith))
  have hk : Even k := hy.even (.inr (by linarith))
  have hsucc : m ≤ k + 1 := by
    have : (m : ℚ) ≤ k + 1 := by linarith
    exact_mod_cast this
  rw [Int.even_iff] at hm hk
  omega

/-- `roundEven` yields the nearest integer of its quotient, which is `n / d` and the fraction `f` of the remainder. -/
theorem roundEven_nearestEven (n : Nat) {d : Nat} (hd : 0 < d) : NearestEven ((n : ℚ) / d) (roundEven n d) := by
  have hd' : (0 : ℚ) < d := by exact_mod_cast hd
  obtain ⟨f, hf⟩ : ∃ f : ℚ, f = (n % d : Nat) / (d : ℚ) := ⟨_, rfl⟩
  have hquot : (n : ℚ) / d = (n / d : Nat) + f := by
    rw [hf, div_eq_iff hd'.ne', add_mul, div_mul_cancel₀ _ hd'.ne']
    exact_mod_cast (Nat.div_add_mod' n d).symm
  have hnonneg : 0 ≤ f := by rw [hf]; positivity
  have hone : f < 1 := by rw [hf, div_lt_one hd']; exact_mod_cast Nat.mod_lt n hd
  have hbelow : 2 * (n % d) < d ↔ f < 1 / 2 := by
    rw [hf, div_lt_div_iff₀ hd' two_pos, mul_comm, one_mul]
    norm_cast
  have habove : d < 2 * (n % d) ↔ 1 / 2 < f := by
    rw [hf, div_lt_div_iff₀ two_pos hd', mul_comm _ (2 : ℚ), one_mul]
    norm_cast
  rw [hquot]
  simp only [roundEven, hbelow, habove]
  generalize n / d = q
  split_ifs with hlt hgt heven
  · exact ⟨by push_cast; linarith, by push_cast; linarith, by push_cast; rintro (h | h) <;> linarith⟩
  · exact ⟨by push_cast; linarith, by push_cast; linarith, by push_cast; rintro (h | h) <;> linarith⟩
  · exact ⟨by push_cast; linarith, by push_cast; linarith, fun _ => by exact_mod_cast Nat.even_iff.2 heven⟩
  · refine ⟨by push_cast; linarith, by push_cast; linarith, fun _ => ?_⟩
    exact_mod_cast Nat.even_add_one.2 (mt Nat.even_iff.1 heven)

/-! Rounding to a 53-bit significand. -/

/-- The exponent as `rn64` and `floorLog2` write it: one of the two natural powers is 1. -/
theorem two_zpow_eq_div (k : Int) : (2 : ℚ) ^ k = 2 ^ k.toNat / 2 ^ (-k).toNat := by
  rw [← zpow_natCast, ← zpow_natCast, ← zpow_sub₀ two_ne_zero, Int.toNat_sub_toNat_neg]

/-- `floorLog2` yields the binade of its quotient. -/
theorem floorLog2_bounds {n d : Nat} (hn : 0 < n) (hd : 0 < d) :
    (2 : ℚ) ^ floorLog2 n d ≤ n / d ∧ (n : ℚ) / d < 2 ^ (floorLog2 n d + 1) := by
  have hd' : (0 : ℚ) < d := by exact_mod_cast hd
  have hlow : ∀ {a : Nat}, 0 < a → (2 : ℚ) ^ (a.log2 : Int) ≤ a := fun ha => by
    rw [zpow_natCast]
    exact_mod_cast Nat.log2_self_le ha.ne'
  have hhigh : ∀ a : Nat, (a : ℚ) < 2 ^ ((a.log2 : Int) + 1) := fun a => by
    exact_mod_cast Nat.lt_log2_self (n := a)
  have hupper : (n : ℚ) / d < 2 ^ ((n.log2 : Int) - d.log2 + 1) := by
    rw [sub_add_eq_add_sub, zpow_sub₀ two_ne_zero]
    exact div_lt_div₀ (hhigh n) (hlow hd) (by positivity) (by positivity)
  have hlower : (2 : ℚ) ^ ((n.log2 : Int) - d.log2 - 1) ≤ n / d := by
    rw [sub_sub, zpow_sub₀ two_ne_zero]
    exact div_le_div₀ (by positivity) (hlow hn) hd' (hhigh d).le
  have htest : ∀ k : Int, d * 2 ^ k.toNat ≤ n * 2 ^ (-k).toNat ↔ (2 : ℚ) ^ k ≤ n / d := fun k => by
    rw [two_zpow_eq_div, div_le_div_iff₀ (by positivity) hd', mul_comm]
    norm_cast
  simp only [floorLog2, htest]
  split_ifs with hk
  · exact ⟨hk, hupper⟩
  · exact ⟨hlower, by simpa using hk⟩

/-- In units of `2 ^ e`, which give `x` a significand of 53 bits, `m` is the integer that `x` is rounded to. -/
structure SignificandRounds (x : ℚ) (e m : Int) : Prop where
  lower : 2 ^ 52 ≤ |x / 2 ^ e|
  upper : |x / 2 ^ e| < 2 ^ 53
  nearest : NearestEven (x / 2 ^ e) m

/-- `y` is the binary64 value (log entry 7) that `x` is rounded to. -/
def RoundsTo (x y : ℚ) : Prop :=
  x = 0 ∧ y = 0 ∨ ∃ e m : Int, SignificandRounds x e m ∧ y = m * 2 ^ e

theorem RoundsTo.exists_significand {x y : ℚ} (h : RoundsTo x y) (hx : x ≠ 0) :
    ∃ e m : Int, SignificandRounds x e m ∧ y = m * 2 ^ e :=
  h.resolve_left fun hzero => hx hzero.1

theorem SignificandRounds.neg {x : ℚ} {e m : Int} (h : SignificandRounds x e m) :
    SignificandRounds (-x) e (-m) where
  lower := by rw [neg_div, abs_neg]; exact h.lower
  upper := by rw [neg_div, abs_neg]; exact h.upper
  nearest := by rw [neg_div]; exact h.nearest.neg

/-- Zero lies in no binade. -/
theorem SignificandRounds.ne_zero {x : ℚ} {e m : Int} (h : SignificandRounds x e m) : x ≠ 0 := by
  rintro rfl
  have hlower := h.lower
  norm_num at hlower

theorem RoundsTo.neg {x y : ℚ} (h : RoundsTo x y) : RoundsTo (-x) (-y) := by
  obtain ⟨rfl, rfl⟩ | ⟨e, m, hm, rfl⟩ := h
  · exact .inl ⟨neg_zero, neg_zero⟩
  · exact .inr ⟨e, -m, hm.neg, by push_cast; ring⟩

/-- A positive number lies in the binade of its unit, and its significand is positive: both ends of the binade are integers
in that unit. -/
theorem SignificandRounds.of_pos {x : ℚ} {e m : Int} (h : SignificandRounds x e m) (hx : 0 < x) :
    2 ^ 52 * 2 ^ e ≤ x ∧ x < 2 ^ 53 * 2 ^ e ∧ 2 ^ 52 ≤ m ∧ m ≤ 2 ^ 53 := by
  have hu : (0 : ℚ) < 2 ^ e := by positivity
  have hpos : 0 < x / 2 ^ e := div_pos hx hu
  have hlower := h.lower
  have hupper := h.upper
  rw [abs_of_pos hpos] at hlower hupper
  have hlow : NearestEven (2 ^ 52) (2 ^ 52) := nearestEven_of_eq (by norm_num)
  have hhigh : NearestEven (2 ^ 53) (2 ^ 53) := nearestEven_of_eq (by norm_num)
  exact ⟨(le_div_iff₀ hu).1 hlower, (div_lt_iff₀ hu).1 hupper, hlow.mono h.nearest hlower,
    h.nearest.mono hhigh hupper.le⟩

theorem SignificandRounds.abs_bounds {x : ℚ} {e m : Int} (h : SignificandRounds x e m) :
    2 ^ 52 * 2 ^ e ≤ |x| ∧ |x| < 2 ^ 53 * 2 ^ e ∧ 2 ^ 52 ≤ |m| ∧ |m| ≤ 2 ^ 53 := by
  rcases h.ne_zero.lt_or_gt with hx | hx
  · have hbounds := h.neg.of_pos (neg_pos.2 hx)
    rw [abs_of_neg hx, abs_of_neg (by omega)]
    exact hbounds
  · have hbounds := h.of_pos hx
    rw [abs_of_pos hx, abs_of_pos (by omega)]
    exact hbounds

theorem RoundsTo.nonneg {x y : ℚ} (h : RoundsTo x y) (hx : 0 ≤ x) : 0 ≤ y := by
  obtain ⟨-, rfl⟩ | ⟨e, m, hm, rfl⟩ := h
  · exact le_rfl
  · obtain ⟨-, -, hmlow, -⟩ := hm.of_pos (hx.lt_of_ne' hm.ne_zero)
    have hmpos : (0 : ℚ) ≤ m := by exact_mod_cast (by omega : 0 ≤ m)
    positivity

/-- Rounding is monotone on the positive numbers: within one binade by the nearest multiples of its unit, and between two
because `2 ^ 53` units of the lower are no more than `2 ^ 52` of the higher. -/
theorem SignificandRounds.mono {x x' : ℚ} {e e' m m' : Int} (h : SignificandRounds x e m)
    (h' : SignificandRounds x' e' m') (hx : 0 < x) (hxx' : x ≤ x') : (m * 2 ^ e : ℚ) ≤ m' * 2 ^ e' := by
  obtain ⟨hlow, hhigh, hmlow, hmhigh⟩ := h.of_pos hx
  obtain ⟨hlow', hhigh', hmlow', hmhigh'⟩ := h'.of_pos (hx.trans_le hxx')
  have hdouble : ∀ {k l : Int}, k < l → (2 : ℚ) * 2 ^ k ≤ 2 ^ l := fun {k l} hkl => by
    rw [← zpow_one_add₀ two_ne_zero]
    exact zpow_le_zpow_right₀ one_le_two (by omega)
  rcases lt_trichotomy e e' with hlt | rfl | hgt
  · calc (m * 2 ^ e : ℚ) ≤ 2 ^ 53 * 2 ^ e := by gcongr; exact_mod_cast hmhigh
      _ = 2 ^ 52 * (2 * 2 ^ e) := by ring
      _ ≤ 2 ^ 52 * 2 ^ e' := by gcongr; exact hdouble hlt
      _ ≤ m' * 2 ^ e' := by gcongr; exact_mod_cast hmlow'
  · have hm : m ≤ m' := h.nearest.mono h'.nearest (by gcongr)
    gcongr
  · linarith [hdouble hgt]

/-- Rounding is monotone, and so a function of the number it rounds. -/
theorem RoundsTo.mono {x x' y y' : ℚ} (h : RoundsTo x y) (h' : RoundsTo x' y') (hxx' : x ≤ x') : y ≤ y' := by
  rcases lt_or_ge 0 x with hx | hx
  · obtain ⟨e, m, hm, rfl⟩ := h.exists_significand hx.ne'
    obtain ⟨e', m', hm', rfl⟩ := h'.exists_significand (hx.trans_le hxx').ne'
    exact hm.mono hm' hx hxx'
  rcases lt_or_ge x' 0 with hx' | hx'
  · obtain ⟨e, m, hm, rfl⟩ := h.exists_significand (hxx'.trans_lt hx').ne
    obtain ⟨e', m', hm', rfl⟩ := h'.exists_significand hx'.ne
    have hneg := hm'.neg.mono hm.neg (neg_pos.2 hx') (neg_le_neg hxx')
    push_cast at hneg
    linarith
  · linarith [h.neg.nonneg (neg_nonneg.2 hx), h'.nonneg hx']

/-- An integer whose magnitude is at most `2 ^ 52` is a binary64 value: its binade's unit divides it. -/
theorem RoundsTo.eq_intCast {y : ℚ} {k : Int} (h : RoundsTo k y) (hk : |k| ≤ 2 ^ 52) : y = k := by
  obtain ⟨hzero, rfl⟩ | ⟨e, m, hm, rfl⟩ := h
  · exact hzero.symm
  obtain ⟨hlow, -, -, -⟩ := hm.abs_bounds
  have hk' : |(k : ℚ)| ≤ 2 ^ 52 := by exact_mod_cast hk
  have hunit : (2 : ℚ) ^ e ≤ 2 ^ (0 : Int) := by
    rw [zpow_zero]
    linarith
  have he : e ≤ 0 := (zpow_le_zpow_iff_right₀ one_lt_two).1 hunit
  obtain ⟨j, rfl⟩ : ∃ j : Nat, e = -j := ⟨(-e).toNat, by omega⟩
  have hscaled : (k : ℚ) / 2 ^ (-j : Int) = ((k * 2 ^ j : Int) : ℚ) := by
    rw [zpow_neg, zpow_natCast, div_inv_eq_mul]
    push_cast
    rfl
  have hm' : m = k * 2 ^ j := le_antisymm (hm.nearest.mono (nearestEven_of_eq hscaled) le_rfl)
    ((nearestEven_of_eq hscaled).mono hm.nearest le_rfl)
  rw [hm', ← hscaled, div_mul_cancel₀ _ (by positivity)]

/-! The model's rounding. -/

/-- The rational number that a fraction of `rn64` stands for. -/
def fractionValue (x : Int × Nat) : ℚ := x.1 / x.2

theorem rn64_zero (d : Nat) : rn64 0 d = (0, 1) := rfl

theorem rn64_neg (n : Int) (d : Nat) : rn64 (-n) d = (-(rn64 n d).1, (rn64 n d).2) := by
  by_cases hn : n = 0 <;> simp [rn64, hn]

theorem rn64_den_pos (n : Int) (d : Nat) : 0 < (rn64 n d).2 := by
  by_cases hn : n = 0 <;> simp [rn64, hn]

/-- `rn64` rounds in the binade that `floorLog2` finds. -/
theorem rn64_significandRounds {n d : Nat} (hn : 0 < n) (hd : 0 < d) :
    ∃ e m : Int, SignificandRounds ((n : ℚ) / d) e m ∧ fractionValue (rn64 n d) = m * 2 ^ e := by
  obtain ⟨t, ht⟩ : ∃ t, t = 52 - floorLog2 n d := ⟨_, rfl⟩
  obtain ⟨hlow, hhigh⟩ := floorLog2_bounds hn hd
  rw [show floorLog2 n d = 52 + -t by omega, zpow_add₀ two_ne_zero] at hlow
  rw [show floorLog2 n d + 1 = 53 + -t by omega, zpow_add₀ two_ne_zero] at hhigh
  have hu : (0 : ℚ) < 2 ^ (-t) := by positivity
  have hscaled : (n : ℚ) / d / 2 ^ (-t) = (n * 2 ^ t.toNat : Nat) / (d * 2 ^ (-t).toNat : Nat) := by
    rw [zpow_neg, two_zpow_eq_div, inv_div, div_div_div_eq]
    push_cast
    ring
  have hnonneg : (0 : ℚ) ≤ n / d / 2 ^ (-t) := by positivity
  refine ⟨-t, roundEven (n * 2 ^ t.toNat) (d * 2 ^ (-t).toNat), ⟨?_, ?_, ?_⟩, ?_⟩
  · rw [abs_of_nonneg hnonneg, le_div_iff₀ hu]
    exact hlow
  · rw [abs_of_nonneg hnonneg, div_lt_iff₀ hu]
    exact hhigh
  · rw [hscaled]
    exact roundEven_nearestEven _ (by positivity)
  · rw [two_zpow_eq_div (-t), neg_neg]
    have hsign : (n : Int).sign = 1 := Int.sign_eq_one_of_pos (by omega)
    simp [rn64, fractionValue, hn.ne', hsign, ← ht, mul_div_assoc]

/-- `rn64` rounds its quotient. -/
theorem rn64_roundsTo (n : Int) {d : Nat} (hd : 0 < d) : RoundsTo ((n : ℚ) / d) (fractionValue (rn64 n d)) := by
  have hpos : ∀ k : Nat, RoundsTo ((k : ℚ) / d) (fractionValue (rn64 k d)) := fun k => by
    rcases Nat.eq_zero_or_pos k with rfl | hk
    · exact .inl ⟨by simp, by simp [rn64_zero, fractionValue]⟩
    · exact .inr (rn64_significandRounds hk hd)
  obtain ⟨k, rfl | rfl⟩ := n.eq_nat_or_neg
  · rw [Int.cast_natCast]
    exact hpos k
  · have hneg := (hpos k).neg
    rw [← neg_div] at hneg
    simpa [rn64_neg, fractionValue, neg_div] using hneg

/-- Settles O31: `rn64` rounds a non-zero quotient to a significand in the quotient's own binade (`rn64_roundsTo`), here said
without the division by the unit. -/
theorem roundingIsToTheNearestBinary64 : Obligations.RoundingIsToTheNearestBinary64 := by
  intro n d hn hd
  have hquot : (n : ℚ) / d ≠ 0 := div_ne_zero (by exact_mod_cast hn) (by exact_mod_cast hd.ne')
  obtain ⟨e, m, hm, hvalue⟩ := (rn64_roundsTo n hd).exists_significand hquot
  obtain ⟨hlow, hhigh, hmlow, hmhigh⟩ := hm.abs_bounds
  have hu : (0 : ℚ) < 2 ^ e := by positivity
  obtain ⟨hnear, heven⟩ := nearestEven_iff_abs.1 hm.nearest
  have hdist : |(n : ℚ) / d - m * 2 ^ e| = |(n : ℚ) / d / 2 ^ e - m| * 2 ^ e := by
    rw [← abs_of_pos hu, ← abs_mul, abs_of_pos hu, sub_mul, div_mul_cancel₀ _ hu.ne']
  refine ⟨m, e, ?_, ?_, hmlow, hmhigh, hvalue, ?_, fun htie => heven ?_⟩
  · rw [zpow_add₀ two_ne_zero]
    exact hlow
  · rw [zpow_add₀ two_ne_zero]
    exact hhigh
  · rw [hdist]
    linarith [mul_le_mul_of_nonneg_right hnear hu.le]
  · rw [hdist] at htie
    exact mul_right_cancel₀ hu.ne' (by linarith)

end Sys2Proof.Claims
end

section
/-! SUPPORT. The family of range mapping (42_range_mapping.md): what XLAT gives in both arithmetics, and the laws of R165. -/

namespace Sys2Proof.Claims

open Sys2Proof.Machine

variable {s : State} {src : Src} {rs rt : Nat} {a b : AxisRange} {v w : Int}

/-! The two arithmetics over the rationals (R161, R162, R164). -/

/-- The exact translation is the real-valued one, truncated. -/
theorem xlatExact_eq_truncate (v : Int) (b : AxisRange) (ha : a.min.toInt < a.max.toInt) :
    xlatExact v a b = truncate (translateReal v a b) := by
  have hd : ((a.max.toInt - a.min.toInt : Int) : ℚ) ≠ 0 := by exact_mod_cast (sub_pos.2 ha).ne'
  rw [xlatExact, tdiv_eq_truncate _ (sub_pos.2 ha), translateReal]
  congr 1
  rw [Int.cast_add, Int.cast_mul, Int.cast_mul, add_div, mul_div_cancel_right₀ _ hd, div_mul_eq_mul_div]

/-- Settles O26: the integer quotient is the real value over one denominator (`xlatExact_eq_truncate`). -/
theorem exactTranslationTruncatesTheRealValue : Obligations.ExactTranslationTruncatesTheRealValue :=
  fun v _ b ha => xlatExact_eq_truncate v b ha

theorem translateReal_mono (hvw : v ≤ w) (ha : a.min.toInt < a.max.toInt) (hb : b.min.toInt < b.max.toInt) :
    translateReal v a b ≤ translateReal w a b := by
  have hA : (0 : ℚ) < (a.max.toInt - a.min.toInt : Int) := by exact_mod_cast sub_pos.2 ha
  have hB : (0 : ℚ) < (b.max.toInt - b.min.toInt : Int) := by exact_mod_cast sub_pos.2 hb
  unfold translateReal
  gcongr

/-- `y` is the sum of R164: the quotient, the product and the sum, each rounded once. -/
def BinarySum (v : Int) (a b : AxisRange) (y : ℚ) : Prop :=
  ∃ q p : ℚ, RoundsTo (((v - a.min.toInt : Int) : ℚ) / (a.max.toInt - a.min.toInt : Int)) q ∧
    RoundsTo (q * (b.max.toInt - b.min.toInt : Int)) p ∧ RoundsTo (b.min.toInt + p) y

/-- The translation of BINARY64 is the sum of R164, truncated. -/
theorem xlatBinary64_eq_truncate (v : Int) (b : AxisRange) (ha : a.min.toInt < a.max.toInt) :
    ∃ y, BinarySum v a b y ∧ xlatBinary64 v a b = truncate y := by
  obtain ⟨d, hd⟩ : ∃ d, d = (a.max.toInt - a.min.toInt).toNat := ⟨_, rfl⟩
  obtain ⟨q, hq⟩ : ∃ q, q = rn64 (v - a.min.toInt) d := ⟨_, rfl⟩
  obtain ⟨p, hp⟩ : ∃ p, p = rn64 (q.1 * (b.max.toInt - b.min.toInt)) q.2 := ⟨_, rfl⟩
  obtain ⟨y, hy⟩ : ∃ y, y = rn64 (b.min.toInt * p.2 + p.1) p.2 := ⟨_, rfl⟩
  have hval : xlatBinary64 v a b = y.1.tdiv y.2 := by rw [hy, hp, hq, hd, xlatBinary64]
  have hq2 : 0 < q.2 := hq ▸ rn64_den_pos _ _
  have hp2 : 0 < p.2 := hp ▸ rn64_den_pos _ _
  have hy2 : 0 < y.2 := hy ▸ rn64_den_pos _ _
  refine ⟨fractionValue y, ⟨fractionValue q, fractionValue p, ?_, ?_, ?_⟩, ?_⟩
  · rw [show a.max.toInt - a.min.toInt = d by omega, hq]
    exact rn64_roundsTo _ (by omega)
  · have hround := rn64_roundsTo (q.1 * (b.max.toInt - b.min.toInt)) hq2
    rw [← hp, Int.cast_mul, mul_div_right_comm] at hround
    exact hround
  · have hround := rn64_roundsTo (b.min.toInt * p.2 + p.1) hp2
    have hp2' : (p.2 : ℚ) ≠ 0 := by exact_mod_cast hp2.ne'
    rw [← hy, Int.cast_add, Int.cast_mul, Int.cast_natCast, add_div, mul_div_cancel_right₀ _ hp2'] at hround
    exact hround
  · rw [hval, tdiv_eq_truncate _ (by exact_mod_cast hy2)]
    rfl

/-- Each of the three roundings is monotone, and the steps between them are. -/
theorem BinarySum.mono {y z : ℚ} (hy : BinarySum v a b y) (hz : BinarySum w a b z) (hvw : v ≤ w)
    (ha : a.min.toInt < a.max.toInt) (hb : b.min.toInt < b.max.toInt) : y ≤ z := by
  have hA : (0 : ℚ) < (a.max.toInt - a.min.toInt : Int) := by exact_mod_cast sub_pos.2 ha
  have hB : (0 : ℚ) < (b.max.toInt - b.min.toInt : Int) := by exact_mod_cast sub_pos.2 hb
  obtain ⟨q, p, hq, hp, hsum⟩ := hy
  obtain ⟨q', p', hq', hp', hsum'⟩ := hz
  have hqq' : q ≤ q' := hq.mono hq' (by gcongr)
  have hpp' : p ≤ p' := hp.mono hp' (by gcongr)
  exact hsum.mono hsum' (by gcongr)

/-- A word's value is a binary64 value (`RoundsTo.eq_intCast`). -/
theorem abs_toInt_le (x : Word) : |x.toInt| ≤ 2 ^ 52 := by
  have hlow := BitVec.le_toInt x
  have hhigh := BitVec.toInt_lt (x := x)
  rw [abs_le]
  omega

/-- A range's width is a binary64 value. -/
theorem abs_width_le (b : AxisRange) : |b.max.toInt - b.min.toInt| ≤ 2 ^ 52 := by
  have hmin := BitVec.le_toInt b.min
  have hmin' := BitVec.toInt_lt (x := b.min)
  have hmax := BitVec.le_toInt b.max
  have hmax' := BitVec.toInt_lt (x := b.max)
  rw [abs_le]
  omega

/-- At the source's minimum the quotient and the product are 0. -/
theorem BinarySum.of_min {y : ℚ} (h : BinarySum a.min.toInt a b y) : y = b.min.toInt := by
  obtain ⟨q, p, hq, hp, hsum⟩ := h
  obtain rfl : q = (0 : Int) := RoundsTo.eq_intCast (by simpa using hq) (by norm_num)
  obtain rfl : p = (0 : Int) := RoundsTo.eq_intCast (by simpa using hp) (by norm_num)
  exact RoundsTo.eq_intCast (by simpa using hsum) (abs_toInt_le b.min)

/-- At the source's maximum the quotient is 1, and so the product is the target's width. -/
theorem BinarySum.of_max {y : ℚ} (h : BinarySum a.max.toInt a b y) (ha : a.min.toInt < a.max.toInt) :
    y = b.max.toInt := by
  obtain ⟨q, p, hq, hp, hsum⟩ := h
  have hA : ((a.max.toInt - a.min.toInt : Int) : ℚ) ≠ 0 := by exact_mod_cast (sub_pos.2 ha).ne'
  rw [div_self hA] at hq
  obtain rfl : q = (1 : Int) := RoundsTo.eq_intCast (by simpa using hq) (by norm_num)
  rw [Int.cast_one, one_mul] at hp
  obtain rfl := hp.eq_intCast (abs_width_le b)
  rw [← Int.cast_add, add_sub_cancel] at hsum
  exact hsum.eq_intCast (abs_toInt_le b.max)

/-! The laws of R165, in both arithmetics. -/

theorem xlatInt_exact (v : Int) (a b : AxisRange) : xlatInt .exact v a b = xlatExact v a b := rfl

theorem xlatInt_mono (arith : XlatArith) (hvw : v ≤ w) (ha : a.min.toInt < a.max.toInt)
    (hb : b.min.toInt < b.max.toInt) : xlatInt arith v a b ≤ xlatInt arith w a b := by
  cases arith with
  | exact =>
    rw [xlatInt_exact, xlatInt_exact, xlatExact_eq_truncate v b ha, xlatExact_eq_truncate w b ha]
    exact truncate_mono (translateReal_mono hvw ha hb)
  | binary64 =>
    by_cases hab : a = b
    · subst hab
      simpa using hvw
    · obtain ⟨y, hy, hyt⟩ := xlatBinary64_eq_truncate v b ha
      obtain ⟨z, hz, hzt⟩ := xlatBinary64_eq_truncate w b ha
      rw [xlatInt_binary64_of_ne v hab, xlatInt_binary64_of_ne w hab, hyt, hzt]
      exact truncate_mono (hy.mono hz hvw ha hb)

/-- Settles O28: truncation is monotone (`truncate_mono`), and so are the real value and each of R164's roundings
(`RoundsTo.mono`). -/
theorem translationIsMonotone : Obligations.TranslationIsMonotone :=
  fun arith _ _ _ _ ha hb hvw => xlatInt_mono arith hvw ha hb

/-- A translation is `k` where the real value is `k`, the operand is, from a range to itself, and every sum of R164 is. -/
theorem xlatInt_eq {k : Int} (arith : XlatArith) (ha : a.min.toInt < a.max.toInt) (hreal : translateReal v a b = k)
    (hself : a = b → v = k) (hsum : ∀ y, BinarySum v a b y → y = k) : xlatInt arith v a b = k := by
  cases arith with
  | exact => rw [xlatInt_exact, xlatExact_eq_truncate v b ha, hreal, truncate_intCast]
  | binary64 =>
    by_cases hab : a = b
    · subst hab
      rw [xlatInt_binary64_self, hself rfl]
    · obtain ⟨y, hy, hyt⟩ := xlatBinary64_eq_truncate v b ha
      rw [xlatInt_binary64_of_ne v hab, hyt, hsum y hy, truncate_intCast]

theorem xlatInt_min (arith : XlatArith) (b : AxisRange) (ha : a.min.toInt < a.max.toInt) :
    xlatInt arith a.min.toInt a b = b.min.toInt := by
  have hreal : translateReal a.min.toInt a b = b.min.toInt := by simp [translateReal]
  exact xlatInt_eq arith ha hreal (fun h => h ▸ rfl) fun _ hy => hy.of_min

theorem xlatInt_max (arith : XlatArith) (b : AxisRange) (ha : a.min.toInt < a.max.toInt) :
    xlatInt arith a.max.toInt a b = b.max.toInt := by
  have hA : ((a.max.toInt - a.min.toInt : Int) : ℚ) ≠ 0 := by exact_mod_cast (sub_pos.2 ha).ne'
  have hreal : translateReal a.max.toInt a b = b.max.toInt := by
    rw [translateReal, div_self hA, one_mul, ← Int.cast_add, add_sub_cancel]
  exact xlatInt_eq arith ha hreal (fun h => h ▸ rfl) fun _ hy => hy.of_max ha

theorem xlatInt_self (arith : XlatArith) (v : Int) (ha : a.min.toInt < a.max.toInt) : xlatInt arith v a a = v := by
  cases arith with
  | exact => rw [xlatInt_exact, xlatExact, ← add_mul, add_sub_cancel, Int.mul_tdiv_cancel _ (sub_pos.2 ha).ne']
  | binary64 => exact xlatInt_binary64_self v a

/-- Settles O29: monotonicity (`xlatInt_mono`) between the images of the endpoints (`xlatInt_min`, `xlatInt_max`). -/
theorem translationStaysWithinTheTarget : Obligations.TranslationStaysWithinTheTarget := by
  intro arith v a b ha hb hmin hmax
  refine ⟨?_, ?_⟩
  · rw [← xlatInt_min arith b ha]
    exact xlatInt_mono arith hmin ha hb
  · rw [← xlatInt_max arith b ha]
    exact xlatInt_mono arith hmax ha hb

/-! XLAT (R163). -/

/-- XLAT on legal ranges completes where its translation fits s32. -/
theorem exec_xlat_of_eq {x : Word} {y : Int} (hrs : rangeEntry s rs = some a) (hrt : rangeEntry s rt = some b)
    (hx : valueReg s src = some x) (ha : a.min.toInt < a.max.toInt) (hb : b.min.toInt < b.max.toInt)
    (hy : xlatInt s.cfg.xlatArith x.toInt a b = y) (hlo : -(2 ^ 31) ≤ y) (hhi : y ≤ 2 ^ 31 - 1) :
    exec (.xlat src rs rt) s = .next { s with res := some (BitVec.ofInt 32 y) } := by
  have hleg : checkRange rs a = .ok () := checkRange_eq_ok.2 ha
  have hleg' : checkRange rt b = .ok () := checkRange_eq_ok.2 hb
  have hfits : fitsS32 y = true := fitsS32_iff.2 ⟨hlo, hhi⟩
  simp only [exec, execXlat, checkRangeIndex_eq_ok.2 hrs, checkRangeIndex_eq_ok.2 hrt, operand_of_valueReg hx, hleg,
    hleg', hy, hfits, bind_ok, pure_ok, require_true, finish_ok, setRes, toWord]

/-- A word that the translation equals always fits. -/
theorem exec_xlat_of_eq_toInt {x y : Word} (hrs : rangeEntry s rs = some a) (hrt : rangeEntry s rt = some b)
    (hx : valueReg s src = some x) (ha : a.min.toInt < a.max.toInt) (hb : b.min.toInt < b.max.toInt)
    (hy : xlatInt s.cfg.xlatArith x.toInt a b = y.toInt) :
    exec (.xlat src rs rt) s = .next { s with res := some y } := by
  have hhi : y.toInt ≤ 2 ^ 31 - 1 := Int.le_sub_one_of_lt BitVec.toInt_lt
  rw [exec_xlat_of_eq hrs hrt hx ha hb hy (BitVec.le_toInt y) hhi, BitVec.ofInt_toInt]

/-- Settles O13: under EXACT the translation is the quotient of the statement, and XLAT completes with a translation that
fits (`exec_xlat_of_eq`). -/
theorem xlatExactCompletes : Obligations.XlatExactCompletes := by
  rintro src rs rt s a b v y harith hrs hrt hv ha hb rfl hlo hhi
  exact exec_xlat_of_eq hrs hrt hv ha hb (harith ▸ rfl) hlo hhi

/-- Settles O14: between different ranges BINARY64 gives R164's formula (`xlatInt_binary64_of_ne`), and XLAT completes with
a translation that fits (`exec_xlat_of_eq`). -/
theorem xlatBinary64Completes : Obligations.XlatBinary64Completes := by
  rintro src rs rt s a b v q p y harith hrs hrt hv hab ha hb rfl rfl rfl hlo hhi
  exact exec_xlat_of_eq hrs hrt hv ha hb (harith ▸ xlatInt_binary64_of_ne _ hab) hlo hhi

/-- Settles O27: the endpoints' translations are words of the target range (`xlatInt_min`, `xlatInt_max`), so XLAT completes
with them. -/
theorem xlatMapsEndpointsExactly : Obligations.XlatMapsEndpointsExactly := by
  intro src rs rt s a b v hrs hrt hv ha hb
  refine ⟨?_, ?_⟩
  · rintro rfl
    exact exec_xlat_of_eq_toInt hrs hrt hv ha hb (xlatInt_min _ b ha)
  · rintro rfl
    exact exec_xlat_of_eq_toInt hrs hrt hv ha hb (xlatInt_max _ b ha)

/-- Settles O30: the translation is the operand itself (`xlatInt_self`), which is a word. -/
theorem xlatToItsOwnRangeIsTheIdentity : Obligations.XlatToItsOwnRangeIsTheIdentity :=
  fun _ _ _ _ _ v hrs hrt hv ha => exec_xlat_of_eq_toInt hrs hrt hv ha ha (xlatInt_self _ v.toInt ha)

end Sys2Proof.Claims
end

section
/-! SUPPORT. The family of the joystick (43_joystick.md): what AXIS gives, its command sequence (R182), full deflection
(R184), and the axes of the reference device (R181). -/

namespace Sys2Proof.Claims

open Sys2Proof.Machine

variable {s u : State} {a rt : Nat} {d : AxisDesc} {t : AxisRange} {c : Option ConditioningZones} {raw v : Int}

/-! The checks of AXIS and what they have found (R180). -/

/-- The zones that AXIS has found and checked: none for an axis that does not condition, else those of the descriptor, a
legal pair that fits the native range (41_axis_conditioning.md R131). -/
def ZonesFound (s : State) (d : AxisDesc) : Option ConditioningZones → Prop
  | some k => d.cond = true ∧ zonesEntry s d.z.toNat = some k ∧ k.dz.toNat < k.mz.toNat ∧ k.mz.toNat < 32768
  | none => d.cond = false

theorem axisZones_eq_none : axisZones s d = .ok none ↔ d.cond = false := by
  cases hcond : d.cond with
  | false => simp [axisZones, hcond]
  | true => simp [axisZones, hcond, bind_eq_ok]

theorem axisZones_eq_some {k : ConditioningZones} :
    axisZones s d = .ok (some k) ↔ d.cond = true ∧ zonesEntry s d.z.toNat = some k := by
  cases hcond : d.cond with
  | false => simp [axisZones, hcond]
  | true =>
    simp only [axisZones, hcond, if_true, bind_eq_ok, checkZonesIndex_eq_ok, pure_ok, Except.ok.injEq]
    simp

theorem checkAxisZones_some_eq_ok {k : ConditioningZones} {x : Unit} :
    checkAxisZones d (some k) = .ok x ↔ k.dz.toNat < k.mz.toNat ∧ k.mz.toNat < 32768 := by
  simp only [checkAxisZones, bind_eq_ok, checkZonesPair_eq_ok, checkZonesFit_eq_ok, native_min, native_max]
  simp

theorem zonesFound_iff : ZonesFound s d c ↔ axisZones s d = .ok c ∧ checkAxisZones d c = .ok () := by
  cases c with
  | none => simp [ZonesFound, axisZones_eq_none, checkAxisZones]
  | some k => simp [ZonesFound, axisZones_eq_some, checkAxisZones_some_eq_ok, and_assoc]

/-- The checks of AXIS in their order, then its signed short, with the zones and the target that they have found. -/
def checkedAxis (s : State) (a rt : Nat) : Except Stop (Int × Option ConditioningZones × AxisRange) := do
  let d ← requireEntry (axisEntry s a) .axisIndex a
  let t ← checkRangeIndex s rt
  let l ← checkSpecIndex s d.lo.toNat
  let h ← checkSpecIndex s d.hi.toNat
  let c ← axisZones s d
  checkReport s
  checkSpecLayout s d.lo.toNat l
  checkSpecLayout s d.hi.toNat h
  checkDistinct d.lo.toNat l h
  checkRange rt t
  checkAxisZones d c
  let raw ← sShort s l h
  return (raw, c, t)

/-- What AXIS writes: the value, conditioned where zones are found, translated from the native range to `t`. -/
def axisWord (s : State) (raw : Int) (c : Option ConditioningZones) (t : AxisRange) : Word :=
  toWord (xlatInt s.cfg.xlatArith (axisValue raw c) nativeRange t)

theorem exec_axis (a rt : Nat) (s : State) :
    exec (.axis a rt) s =
      finish (encode (.axis a rt)) s (checkedAxis s a rt >>= fun x => .ok (axisWord s x.1 x.2.1 x.2.2)) := by
  simp only [exec, execAxis, checkedAxis, axisWord, bind_assoc, pure_ok, bind_ok]

/-- AXIS makes the checks of GETS16 on its two entries, and beside them those of the target and the zones. -/
theorem checkedAxis_eq_ok :
    checkedAxis s a rt = .ok (raw, c, t) ↔ ∃ d, axisEntry s a = some d ∧ rangeEntry s rt = some t ∧
      t.min.toInt < t.max.toInt ∧ checkedShort s d.lo.toNat d.hi.toNat = .ok raw ∧ ZonesFound s d c := by
  simp only [checkedAxis, checkedShort, zonesFound_iff, bind_eq_ok, requireEntry_eq_ok, checkRangeIndex_eq_ok,
    checkRange_eq_ok, pure_ok, Except.ok.injEq, Prod.mk.injEq]
  constructor
  · rintro ⟨d, hd, t', ht, l, hl, h, hh, c', hc, _, hv, _, hlo, _, hhi, _, hne, _, hrange, _, hzones, v, hshort,
      rfl, rfl, rfl⟩
    exact ⟨d, hd, ht, hrange, ⟨l, hl, h, hh, _, hv, _, hlo, _, hhi, _, hne, hshort⟩, hc, hzones⟩
  · rintro ⟨d, hd, ht, hrange, ⟨l, hl, h, hh, _, hv, _, hlo, _, hhi, _, hne, hshort⟩, hc, hzones⟩
    exact ⟨d, hd, t, ht, l, hl, h, hh, c, hc, _, hv, _, hlo, _, hhi, _, hne, (), hrange, (), hzones, raw, hshort,
      rfl, rfl, rfl⟩

theorem exec_axis_of_checkedAxis (h : checkedAxis s a rt = .ok (raw, c, t)) :
    exec (.axis a rt) s = .next (setRes s (axisWord s raw c t)) := by
  rw [exec_axis, h, bind_ok, finish_ok]

/-- An AXIS that ends without a fault has passed its checks, and writes its word. -/
theorem axis_clear (hd : axisEntry s a = some d) (h : exec (.axis a rt) s = .next u) (hs : s.fault = false)
    (hu : u.fault = false) :
    ∃ raw c t, rangeEntry s rt = some t ∧ t.min.toInt < t.max.toInt ∧
      checkedShort s d.lo.toNat d.hi.toNat = .ok raw ∧ ZonesFound s d c ∧ u = setRes s (axisWord s raw c t) := by
  rw [exec_axis] at h
  obtain ⟨⟨raw, c, t⟩, hfound, rfl⟩ := finish_map_clear h hs hu
  obtain ⟨d', hd', ht, hrange, hshort, hzones⟩ := checkedAxis_eq_ok.1 hfound
  obtain rfl : d = d' := Option.some.inj (hd.symm.trans hd')
  exact ⟨raw, c, t, ht, hrange, hshort, hzones, rfl⟩

/-! The value between the decoding and the translation. -/

theorem axisValue_some (raw : Int) (k : ConditioningZones) : axisValue raw (some k) = conditionedNative raw k := by
  rw [axisValue, native_max]
  rfl

/-- Settles O15: the checks pass with the zones of the descriptor if it conditions (`checkedAxis_eq_ok`), and
`axisValue_some` is the conditioned value. -/
theorem axisCompletes : Obligations.AxisCompletes := by
  rintro a rt s d t l h bl bh c raw hd ht hl hh hzones hv hbl hbh hne hrange rfl
  have hshort : checkedShort s d.lo.toNat d.hi.toNat = .ok (shortOf h l bh bl).toInt :=
    checkedShort_eq_ok.2 ⟨l, h, bl, bh, hl, hh, hv, hbl, hbh, hne, rfl⟩
  have hfound {k : Option ConditioningZones} (hk : ZonesFound s d k) :
      checkedAxis s a rt = .ok ((shortOf h l bh bl).toInt, k, t) :=
    checkedAxis_eq_ok.2 ⟨d, hd, ht, hrange, hshort, hk⟩
  cases hcond : d.cond with
  | true =>
    rw [exec_axis_of_checkedAxis (hfound (k := some c) ⟨hcond, hzones hcond⟩), axisWord, axisValue_some]
    rfl
  | false =>
    rw [exec_axis_of_checkedAxis (hfound (k := none) hcond)]
    rfl

/-- A decoded signed short is an s16 value. -/
theorem checkedShort_s16 {lo hi : Nat} (hv : checkedShort s lo hi = .ok v) : -32768 ≤ v ∧ v ≤ 32767 := by
  obtain ⟨l, h, bl, bh, -, -, -, -, -, -, rfl⟩ := checkedShort_eq_ok.1 hv
  have hlo := BitVec.le_toInt (shortOf h l bh bl)
  have hhi := BitVec.toInt_lt (x := shortOf h l bh bl)
  omega

/-- Conditioning by zones that fit the native range keeps a value in it. -/
theorem axisValue_s16 (hc : ZonesFound s d c) (hraw : -32768 ≤ raw ∧ raw ≤ 32767) :
    -32768 ≤ axisValue raw c ∧ axisValue raw c ≤ 32767 := by
  cases c with
  | none => exact hraw
  | some k =>
    obtain ⟨-, -, -, hfit⟩ := hc
    have hbound := natAbs_condition_le raw k.dz.toNat k.mz.toNat nativeRange.max.toInt
    rw [native_max] at hbound
    rw [axisValue, native_max]
    omega

/-! The command sequence of AXIS (R182), each command on the `RES` that the one before it has left. -/

theorem exec_gets16_of_checkedShort {lo hi : Nat} (h : checkedShort s lo hi = .ok v) :
    exec (.gets16 lo hi) s = .next (setRes s (toWord v)) := by
  rw [exec_gets16, h, bind_ok, finish_ok]

/-- COND on the native range, where the axis is conditioned, gives the value of AXIS; where it is not, the value is the raw
one. -/
theorem cond_step_of_zonesFound (hnative : rangeEntry s 0 = some nativeRange) (hc : ZonesFound s d c)
    (hraw : -32768 ≤ raw ∧ raw ≤ 32767) :
    if d.cond then
      exec (.cond .res d.z.toNat 0) (setRes s (toWord raw)) = .next (setRes s (toWord (axisValue raw c)))
    else setRes s (toWord (axisValue raw c)) = setRes s (toWord raw) := by
  cases c with
  | none => simp [show d.cond = false from hc, axisValue]
  | some k =>
    obtain ⟨hcond, hk, hpair, hfit⟩ := hc
    have hv : operand (setRes s (toWord raw)) .res = .ok raw := by
      rw [operand_res (setRes_res s _), toInt_toWord_of_s16 hraw.1 hraw.2]
    have hfits : k.mz.toNat < max nativeRange.min.toInt.natAbs nativeRange.max.toInt.natAbs := by
      rw [native_min]
      exact lt_max_of_lt_left hfit
    have hfound : conditioned (setRes s (toWord raw)) .res d.z.toNat 0 = .ok (raw, k, nativeRange) :=
      conditioned_eq_ok.2 ⟨hk, hnative, hv, by decide, hpair, hfits, hraw⟩
    rw [if_pos hcond, exec_cond_of_conditioned hfound]
    rfl

/-- XLAT of an s16 value from the native range never overflows: the translation lies in the target range
(42_range_mapping.md R165 item 3). -/
theorem exec_xlat_native (hnative : rangeEntry s 0 = some nativeRange) (ht : rangeEntry s rt = some t)
    (hrange : t.min.toInt < t.max.toInt) (hv : -32768 ≤ v ∧ v ≤ 32767) :
    exec (.xlat .res 0 rt) (setRes s (toWord v)) =
      .next (setRes s (toWord (xlatInt s.cfg.xlatArith v nativeRange t))) := by
  obtain ⟨hmin, hmax⟩ := translationStaysWithinTheTarget s.cfg.xlatArith v nativeRange t (by decide) hrange
    (native_min ▸ hv.1) (native_max ▸ hv.2)
  have hlo := (BitVec.le_toInt t.min).trans hmin
  have hhi := Int.le_sub_one_of_lt (hmax.trans_lt BitVec.toInt_lt)
  exact exec_xlat_of_eq (s := setRes s (toWord v)) hnative ht rfl (by decide) hrange
    (by rw [toInt_toWord_of_s16 hv.1 hv.2, setRes_cfg]) hlo hhi

/-- Settles O33: AXIS has made the checks of GETS16 and COND (`axis_clear`), and its translation cannot overflow in XLAT
(`exec_xlat_native`). -/
theorem axisSequenceCompletesWhereAxisDoes : Obligations.AxisSequenceCompletesWhereAxisDoes := by
  intro a rt s u d hd hs hexec hu
  obtain ⟨raw, c, t, ht, hrange, hshort, hzones, rfl⟩ := axis_clear hd hexec hs hu
  have hnative := rangeEntry_zero ht
  have hraw := checkedShort_s16 hshort
  exact ⟨_, _, exec_gets16_of_checkedShort hshort, hs, cond_step_of_zonesFound hnative hzones hraw, hs,
    exec_xlat_native hnative ht hrange (axisValue_s16 hzones hraw)⟩

/-- Settles O32: the sequence that completes where AXIS does (`axisSequenceCompletesWhereAxisDoes`) is this one, since each
command answers one state. -/
theorem axisEqualsItsCommandSequence : Obligations.AxisEqualsItsCommandSequence := by
  intro a rt s u m1 m2 m3 d hd hs hexec hu hgets16 _ hcond _ hxlat _
  obtain ⟨n1, n2, hgets16', -, hcond', -, hxlat'⟩ := axisSequenceCompletesWhereAxisDoes a rt s u d hd hs hexec hu
  obtain rfl : m1 = n1 := by simpa [hgets16] using hgets16'
  obtain rfl : m2 = n2 := by
    split_ifs at hcond hcond'
    · simpa [hcond] using hcond'
    · exact hcond.trans hcond'.symm
  simpa [hxlat] using hxlat'

/-! Full deflection (R184). -/

theorem conditionedNative_of_above {k : ConditioningZones} (hpair : k.dz.toNat < k.mz.toNat)
    (h : (k.mz.toNat : Int) + 1 ≤ raw) : conditionedNative raw k = 32767 := by
  rw [conditionedNative, if_neg (by omega), if_pos (by omega), if_pos (by omega)]

theorem conditionedNative_of_below {k : ConditioningZones} (hpair : k.dz.toNat < k.mz.toNat)
    (h : raw ≤ -((k.mz.toNat : Int) + 1)) : conditionedNative raw k = -32767 := by
  rw [conditionedNative, if_neg (by omega), if_pos (by omega), if_neg (by omega)]

/-- Settles O34: beyond the max zone the conditioned value is 32767 or -32767, and 32767 is the native maximum, which goes
to the target's (`xlatInt_max`). -/
theorem conditionedAxisAtFullDeflection : Obligations.ConditionedAxisAtFullDeflection := by
  intro a rt s u d t l h bl bh k hd hcond ht hk hl hh hbl hbh hs hexec hu
  obtain ⟨raw, c, t', ht', -, hshort, hzones, rfl⟩ := axis_clear hd hexec hs hu
  obtain rfl : t = t' := Option.some.inj (ht.symm.trans ht')
  obtain ⟨l', h', bl', bh', hl', hh', -, ⟨-, -, hbl'⟩, ⟨-, -, hbh'⟩, -, rfl⟩ := checkedShort_eq_ok.1 hshort
  obtain rfl : l = l' := Option.some.inj (hl.symm.trans hl')
  obtain rfl : h = h' := Option.some.inj (hh.symm.trans hh')
  obtain rfl : bl = bl' := Option.some.inj (hbl.symm.trans hbl')
  obtain rfl : bh = bh' := Option.some.inj (hbh.symm.trans hbh')
  cases c with
  | none => simp [ZonesFound, hcond] at hzones
  | some k' =>
    obtain ⟨-, hk', hpair, -⟩ := hzones
    obtain rfl : k = k' := Option.some.inj (hk.symm.trans hk')
    rw [setRes_res, axisWord, axisValue_some]
    refine ⟨fun hfull => ?_, fun hfull => ?_⟩
    · rw [conditionedNative_of_above hpair hfull, ← native_max, xlatInt_max _ t (by decide), toWord_toInt]
    · rw [conditionedNative_of_below hpair hfull, toWord]

/-! The reference device (R181). -/

/-- A table with rising indexes lists an index once, so every listed value is read. -/
theorem tableGet_of_mem {α : Type} {xs : List (Nat × α)} (hform : Rising xs) {e : Nat × α} (he : e ∈ xs) :
    tableGet xs e.1 = some e.2 := by
  induction xs with
  | nil => simp at he
  | cons p rest ih =>
    obtain ⟨hfirst, hrest⟩ := (rising_cons p rest).1 hform
    rcases List.mem_cons.1 he with rfl | hmem
    · simp [tableGet]
    · have hne : e.1 ≠ p.1 := (hfirst e hmem).ne'
      simpa [tableGet, hne] using ih hrest hmem

theorem axisEntry_of_mem (hform : Rising s.axes) {e : Nat × AxisDesc} (he : e ∈ s.axes) (hlt : e.1 < naxis) :
    axisEntry s e.1 = some e.2 := by
  rw [axisEntry, if_pos hlt, tableGet_of_mem hform he]

theorem specEntry_of_mem (hform : Rising s.spec) {e : Nat × ButtonSpec} (he : e ∈ s.spec) (hlt : e.1 < s.cfg.nspec) :
    specEntry s e.1 = some e.2 := by
  rw [specEntry, if_pos hlt, tableGet_of_mem hform he]

/-- Whole bytes: the signed short is the high byte above the low one. -/
theorem shortOf_whole {l h : ButtonSpec} (hl : l.mask = 0xFF) (hh : h.mask = 0xFF) (bh bl : Byte) :
    shortOf h l bh bl = bh ++ bl := by
  have hwhole (b : Byte) : b &&& 0xFF = b := BitVec.and_allOnes
  rw [shortOf, hl, hh, hwhole, hwhole]

/-- Settles O51: the descriptor and its two entries stand in the layout's tables (`axisEntry_of_mem`, `specEntry_of_mem`),
and GETS16 of two whole bytes, the high one next above the low one, completes (`gets16Completes`, `shortOf_whole`). -/
theorem referenceAxesAreLittleEndianFields : Obligations.ReferenceAxesAreLittleEndianFields := by
  intro s l a hlegal hlayout href hspec haxes ha
  obtain ⟨-, -, -, -, hlayouts⟩ := hlegal
  obtain ⟨⟨hspecForm, hspecBound⟩, -, haxesForm, haxesBound⟩ := hlayouts l (by simp [hlayout])
  rw [← hspec] at hspecForm hspecBound
  rw [← haxes] at haxesForm haxesBound
  obtain ⟨⟨a', d⟩, hd, rfl, hcond, ⟨ilo, lo⟩, hlo, ⟨ihi, hi⟩, hhi, rfl, rfl, hlomask, hhimask, hnext⟩ := href a ha
  rw [← haxes] at hd
  rw [← hspec] at hlo hhi
  have hloEntry := specEntry_of_mem hspecForm hlo (hspecBound _ hlo)
  have hhiEntry := specEntry_of_mem hspecForm hhi (hspecBound _ hhi)
  refine ⟨d, lo, axisEntry_of_mem haxesForm hd (haxesBound _ hd), hcond, hloEntry, ?_⟩
  intro bl bh hv hlen hbl hbh
  dsimp only at hlomask hhimask hnext
  have hloRead : Readable s lo bl := ⟨by simp [hlomask], by omega, hbl⟩
  have hhiRead : Readable s hi bh := ⟨by simp [hhimask], by omega, hnext ▸ hbh⟩
  have hne : lo.off ≠ hi.off := fun heq => by simp [heq] at hnext
  rw [gets16Completes _ _ s lo hi bl bh hloEntry hhiEntry hv hloRead hhiRead hne, shortOf_whole hlomask hhimask]

end Sys2Proof.Claims
end

section
/-! SUPPORT. The family of the host interface (44_host_interface.md): what each transaction does to a block without a fault,
and that a faulted block ignores it. -/

namespace Sys2Proof.Claims

open Sys2Proof.Machine

variable {s : State}

/-! The guard on `FAULT` (R212). -/

/-- Every transaction but RESET and the reads stands behind the guard. -/
theorem perform_faulted {t : Txn} (hfault : s.fault = true) (htyped : t.wellTyped s.cfg = true) (hreset : t ≠ .reset)
    (hresult : t ≠ .readResult) (hstatus : t ≠ .readStatus) : perform exec t s = .next s := by
  have hguard (body : State) : Host.Outcome.next (unlessFaulted s body) = (.next s : Host.Outcome State Fault Refusal) :=
    congrArg _ (unlessFaulted_faulted hfault)
  cases t with
  | writeSpec _ _ _ => exact hguard _
  | writeZones _ _ _ => exact hguard _
  | writeAxis _ _ _ _ _ => exact hguard _
  | writeRange _ _ _ => exact hguard _
  | lock => exact hguard _
  | writeArg _ => exact hguard _
  | loadReport bytes => exact (if_pos htyped).trans (hguard _)
  | issue w => exact issue_faulted exec w hfault
  | reset => exact absurd rfl hreset
  | readResult => exact absurd rfl hresult
  | readStatus => exact absurd rfl hstatus

/-- Settles O20: see `perform_faulted`. -/
theorem faultedBlockIgnoresTransactions : Obligations.FaultedBlockIgnoresTransactions := by
  intro s t rest hs hfault htyped hreset hresult hstatus
  exact (step_cons hs).trans (perform_faulted hfault htyped hreset hresult hstatus)

/-! The configuration writes of an unlocked block (R201 to R203), and WRITE_RANGE, which does not ask for the lock (R204). -/

section Writes

variable {rest : List Txn}

/-- A write with one check, in a block without a fault: the check's fault, or the write. -/
theorem checked_write (hclear : s.fault = false) (bad : Prop) [Decidable bad] (e : FaultCode) (info : Nat)
    (written : State) :
    (.next (unlessFaulted s (if bad then raiseHost s e info else written)) : Host.Outcome State Fault Refusal) =
      if bad then .next (recorded s (codeOf e) info true 0) else .next written := by
  rw [unlessFaulted_clear hclear, raiseHost, raise_eq_recorded hclear, apply_ite Host.Outcome.next]

/-- A write that asks for the lock before its check, in an unlocked block without a fault. -/
theorem unlocked_write (hclear : s.fault = false) (hopen : s.cfgLocked = false) (bad : Prop) [Decidable bad]
    (e : FaultCode) (info : Nat) (written : State) :
    (.next (unlessFaulted s (if s.cfgLocked then raiseHost s .cfgLocked 0
      else if bad then raiseHost s e info else written)) : Host.Outcome State Fault Refusal) =
      if bad then .next (recorded s (codeOf e) info true 0) else .next written := by
  rw [if_neg (by simp [hopen]), checked_write hclear]

theorem step_writeSpec {i : Byte} {off : Half} {mask : Byte} (hs : s.script = .writeSpec i off mask :: rest)
    (hclear : s.fault = false) (hopen : s.cfgLocked = false) :
    step s = if s.cfg.nspec ≤ i.toNat then .next (recorded { s with script := rest } 2 i.toNat true 0)
      else .next { s with script := rest, spec := tablePut s.spec i.toNat ⟨off, mask⟩ } :=
  (step_cons hs).trans (unlocked_write (s := setScript s rest) hclear hopen _ .specIndex i.toNat _)

theorem step_writeZones {z : BitVec 4} {dz mz : Half} (hs : s.script = .writeZones z dz mz :: rest)
    (hclear : s.fault = false) (hopen : s.cfgLocked = false) :
    step s = if s.cfg.nzones ≤ z.toNat then .next (recorded { s with script := rest } 4 z.toNat true 0)
      else .next { s with script := rest, zones := tablePut s.zones z.toNat ⟨dz, mz⟩ } :=
  (step_cons hs).trans (unlocked_write (s := setScript s rest) hclear hopen _ .zonesIndex z.toNat _)

theorem step_writeAxis {a : BitVec 4} {lo hi : Byte} {cond : Bool} {z : BitVec 4}
    (hs : s.script = .writeAxis a lo hi cond z :: rest) (hclear : s.fault = false) (hopen : s.cfgLocked = false) :
    step s = if naxis ≤ a.toNat then .next (recorded { s with script := rest } 5 a.toNat true 0)
      else .next { s with script := rest, axes := tablePut s.axes a.toNat ⟨lo, hi, cond, z⟩ } :=
  (step_cons hs).trans (unlocked_write (s := setScript s rest) hclear hopen _ .axisIndex a.toNat _)

theorem step_writeRange {r : BitVec 4} {min max : Word} (hs : s.script = .writeRange r min max :: rest)
    (hclear : s.fault = false) :
    step s = if r.toNat = 0 ∨ s.cfg.nrange ≤ r.toNat then .next (recorded { s with script := rest } 3 r.toNat true 0)
      else .next { s with script := rest, ranges := tablePut s.ranges r.toNat ⟨min, max⟩ } :=
  (step_cons hs).trans (checked_write (s := setScript s rest) hclear _ .rangeIndex r.toNat _)

/-- A configuration write at a locked block. -/
theorem step_locked {t : Txn} (hs : s.script = t :: rest) (hclear : s.fault = false) (hlock : s.cfgLocked = true)
    (ht : WritesConfiguration t) : step s = .next (recorded { s with script := rest } 15 0 true 0) :=
  (step_cons hs).trans (perform_locked (s := setScript s rest) hclear hlock ht)

end Writes

/-! A table's entries after a write: the new one at its index, and each other one as before. -/

theorem specEntry_put {i : Nat} (hi : i < s.cfg.nspec) (e : ButtonSpec) :
    specEntry (setSpec s (tablePut s.spec i e)) i = some e ∧
      ∀ j, j ≠ i → specEntry (setSpec s (tablePut s.spec i e)) j = specEntry s j :=
  ⟨by simp [specEntry, hi, tableGet_put_same], fun j hj => by simp [specEntry, tableGet_put_other _ _ hj]⟩

theorem zonesEntry_put {z : Nat} (hz : z < s.cfg.nzones) (c : ConditioningZones) :
    zonesEntry (setZones s (tablePut s.zones z c)) z = some c ∧
      ∀ j, j ≠ z → zonesEntry (setZones s (tablePut s.zones z c)) j = zonesEntry s j :=
  ⟨by simp [zonesEntry, hz, tableGet_put_same], fun j hj => by simp [zonesEntry, tableGet_put_other _ _ hj]⟩

theorem axisEntry_put {a : Nat} (ha : a < naxis) (d : AxisDesc) :
    axisEntry (setAxes s (tablePut s.axes a d)) a = some d ∧
      ∀ j, j ≠ a → axisEntry (setAxes s (tablePut s.axes a d)) j = axisEntry s j :=
  ⟨by simp [axisEntry, ha, tableGet_put_same], fun j hj => by simp [axisEntry, tableGet_put_other _ _ hj]⟩

theorem rangeEntry_put {r : Nat} (hzero : r ≠ 0) (hr : r < s.cfg.nrange) (x : AxisRange) :
    rangeEntry (setRanges s (tablePut s.ranges r x)) r = some x ∧
      ∀ j, j ≠ r → rangeEntry (setRanges s (tablePut s.ranges r x)) j = rangeEntry s j :=
  ⟨by simp [rangeEntry, hzero, hr, tableGet_put_same], fun j hj => by simp [rangeEntry, tableGet_put_other _ _ hj]⟩

/-- Settles O36: the guard on `FAULT`, the lock (`step_locked`), and behind them the index (`step_writeSpec`). -/
theorem writeSpecWritesOneEntryOrFaults : Obligations.WriteSpecWritesOneEntryOrFaults := by
  intro s i off mask rest hs
  refine ⟨fun hfault => ?_, fun hclear hlock => ?_, fun hclear hopen hbad => ?_, fun hclear hopen hi => ?_⟩
  · exact faultedBlockIgnoresTransactions s _ rest hs hfault rfl nofun nofun nofun
  · exact step_locked hs hclear hlock (.inl ⟨i, off, mask, rfl⟩)
  · exact (step_writeSpec hs hclear hopen).trans (if_pos hbad)
  · exact ⟨_, (step_writeSpec hs hclear hopen).trans (if_neg hi.not_ge), specEntry_put hi _⟩

/-- Settles O37: the guard on `FAULT`, the lock (`step_locked`), and behind them the index (`step_writeZones`). -/
theorem writeZonesWritesOneEntryOrFaults : Obligations.WriteZonesWritesOneEntryOrFaults := by
  intro s z dz mz rest hs
  refine ⟨fun hfault => ?_, fun hclear hlock => ?_, fun hclear hopen hbad => ?_, fun hclear hopen hz => ?_⟩
  · exact faultedBlockIgnoresTransactions s _ rest hs hfault rfl nofun nofun nofun
  · exact step_locked hs hclear hlock (.inr (.inl ⟨z, dz, mz, rfl⟩))
  · exact (step_writeZones hs hclear hopen).trans (if_pos hbad)
  · exact ⟨_, (step_writeZones hs hclear hopen).trans (if_neg hz.not_ge), zonesEntry_put hz _⟩

/-- Settles O38: the guard on `FAULT`, the lock (`step_locked`), and behind them the index (`step_writeAxis`). -/
theorem writeAxisWritesOneEntryOrFaults : Obligations.WriteAxisWritesOneEntryOrFaults := by
  intro s a lo hi cond z rest hs
  refine ⟨fun hfault => ?_, fun hclear hlock => ?_, fun hclear hopen hbad => ?_, fun hclear hopen ha => ?_⟩
  · exact faultedBlockIgnoresTransactions s _ rest hs hfault rfl nofun nofun nofun
  · exact step_locked hs hclear hlock (.inr (.inr ⟨a, lo, hi, cond, z, rfl⟩))
  · exact (step_writeAxis hs hclear hopen).trans (if_pos hbad)
  · exact ⟨_, (step_writeAxis hs hclear hopen).trans (if_neg ha.not_ge), axisEntry_put ha _⟩

/-- Settles O39: the guard on `FAULT`, and behind it the index (`step_writeRange`), with no word on the lock. -/
theorem writeRangeWritesOneEntryOrFaults : Obligations.WriteRangeWritesOneEntryOrFaults := by
  intro s r min max rest hs
  refine ⟨fun hfault => ?_, fun hclear hbad => ?_, fun hclear hzero hr => ?_⟩
  · exact faultedBlockIgnoresTransactions s _ rest hs hfault rfl nofun nofun nofun
  · exact (step_writeRange hs hclear).trans (if_pos hbad)
  · exact ⟨_, (step_writeRange hs hclear).trans (if_neg (not_or.2 ⟨hzero, hr.not_ge⟩)), rangeEntry_put hzero hr _⟩

/-! The operand register, the report, the commands and the reads. -/

/-- Settles O40: the cells of the loaded report read back as its bytes (`reportByte_cells`). -/
theorem loadReportReplacesTheWholeReport : Obligations.LoadReportReplacesTheWholeReport := by
  intro s bytes rest hs hlen
  have htyped : (Txn.loadReport bytes).wellTyped s.cfg = true := beq_iff_eq.2 hlen
  refine ⟨fun hfault => ?_, fun hclear => ⟨cellsFrom 0 bytes, ?_, reportByte_cells bytes⟩⟩
  · exact faultedBlockIgnoresTransactions s _ rest hs hfault htyped nofun nofun nofun
  · calc step s = .next (loadReport bytes (setScript s rest)) := (step_cons hs).trans (if_pos htyped)
      _ = .next (setReport (setScript s rest) (cellsFrom 0 bytes)) := congrArg _ (unlessFaulted_clear hclear)

/-- Settles O6: see `issue_decoded`. -/
theorem stepRunsTheDecodedCommand : Obligations.StepRunsTheDecodedCommand :=
  fun _ _ _ _ hs hclear hdecode => (step_cons hs).trans (issue_decoded exec hclear hdecode)

/-- Settles O41: WRITE_ARG has the guard on `FAULT` and no check. -/
theorem writeArgLoadsTheOperandRegister : Obligations.WriteArgLoadsTheOperandRegister := by
  intro s v rest hs
  by_cases hfault : s.fault
  · rw [if_pos hfault]
    exact faultedBlockIgnoresTransactions s _ rest hs hfault rfl nofun nofun nofun
  · rw [if_neg hfault]
    exact (step_cons hs).trans (congrArg Host.Outcome.next (unlessFaulted_clear (by simpa using hfault)))

/-- Settles O45: the reads have no guard, and push their reply. -/
theorem readsReturnStateAndChangeNone : Obligations.ReadsReturnStateAndChangeNone :=
  ⟨fun _ _ hs => step_cons hs, fun _ _ hs => step_cons hs⟩

end Sys2Proof.Claims
end

section
/-! SUPPORT. The exceptions (60_exceptions.md): a transaction raises the first failing check of its row (R231, R233), and
nothing but RESET leaves a fault (R232, R235). -/

namespace Sys2Proof.Claims

open Sys2Proof.Machine

variable {s : State}

/-! What the transactions do in a block with a fault. -/

/-- While a fault stands, a transaction other than RESET is ignored or answers a read, and neither changes the record or
`RES`. -/
theorem performed_faulted {u : State} {t : Txn} (hfault : s.fault = true) (ht : t ≠ .reset) (hp : Performed s u t) :
    SameRecord s u ∧ u.res = s.res := by
  cases hp with
  | ignored _ hu => simp [SameRecord, hu]
  | faulted hclear _ _ _ _ _ _ _ => simp [hfault] at hclear
  | wrote hclear _ => simp [hfault] at hclear
  | reset hreset _ => exact absurd hreset ht
  | readResult _ hu => simp [SameRecord, hu, readResult]
  | readStatus _ hu => simp [SameRecord, hu, readStatus]

/-- Settles O21: a step is idle, or performs a transaction that leaves the record and `RES` (`performed_faulted`). -/
theorem onlyResetLeavesAFault : Obligations.OnlyResetLeavesAFault := by
  intro s u hfault hstep hhead
  rcases step_next hstep with ⟨_, rfl⟩ | ⟨t, ts, hs, hp⟩
  · exact ⟨hfault, rfl, rfl, rfl, rfl, rfl⟩
  · have ht : t ≠ .reset := by simpa [hs] using hhead
    obtain ⟨⟨hf, hcode, hinfo, hsrc, hcmd⟩, hres⟩ := performed_faulted (s := setScript s ts) hfault ht hp
    exact ⟨hf.trans hfault, hcode, hinfo, hsrc, hcmd, hres⟩

/-! The first failing check of each transaction that has checks. -/

section Checks

variable {rest : List Txn} {code c : Byte} {info n : Nat}

/-- A row of one check. -/
theorem firstFailing_single {bad : Prop} [Decidable bad] :
    firstFailing [(decide bad, c, n)] = some (code, info) ↔ bad ∧ c = code ∧ n = info := by
  by_cases hbad : bad <;> simp [firstFailing, hbad]

/-- No check reads the host's script. -/
theorem commandChecks_setScript (i : Instr) (ts : List Txn) : commandChecks (setScript s ts) i = commandChecks s i := by
  cases i <;> rfl

/-- ISSUE: a word that does not decode fails there, and any other word is the word of its command, which raises the first
failing check of its own row. -/
theorem step_issue_raises {w : Word} (hs : s.script = .issue w :: rest) (hclear : s.fault = false)
    (hfail : firstFailing (transactionChecks s (.issue w)) = some (code, info)) :
    step s = .next (recorded { s with script := rest } code info false w) := by
  cases hdecode : decode w with
  | error r =>
    obtain ⟨rfl, rfl⟩ : 1 = code ∧ 0 = info := by simpa [transactionChecks, hdecode, firstFailing] using hfail
    exact (step_cons hs).trans (issue_illegal exec hclear hdecode)
  | ok i =>
    have hrow : firstFailing (commandChecks (setScript s rest) i) = some (code, info) := by
      simpa only [transactionChecks, hdecode, commandChecks_setScript] using hfail
    have hword : encode i = w := (encodeOfDecodeIsTheWord w i hdecode).2
    calc step s = exec i (setScript s rest) := stepRunsTheDecodedCommand s w rest i hs hclear hdecode
      _ = .next (recorded (setScript s rest) code info false (encode i)) := exec_raises_firstFailing hclear hrow
      _ = .next (recorded (setScript s rest) code info false w) := by rw [hword]

/-- A configuration write checks the lock and then its index, whose fault in an unlocked block is `hindex`. -/
theorem step_write_raises {t : Txn} (hs : s.script = t :: rest) (hclear : s.fault = false) (ht : WritesConfiguration t)
    {bad : Prop} [Decidable bad]
    (hindex : s.cfgLocked = false → bad → step s = .next (recorded { s with script := rest } c n true 0))
    (hfail : firstFailing [(s.cfgLocked, 15, 0), (decide bad, c, n)] = some (code, info)) :
    step s = .next (recorded { s with script := rest } code info true 0) := by
  rcases Bool.eq_false_or_eq_true s.cfgLocked with hlock | hopen
  · obtain ⟨rfl, rfl⟩ : 15 = code ∧ 0 = info := by simpa [firstFailing, hlock] using hfail
    exact step_locked hs hclear hlock ht
  · rw [hopen, firstFailing] at hfail
    obtain ⟨hbad, rfl, rfl⟩ := firstFailing_single.1 hfail
    exact hindex hopen hbad

end Checks

/-- Settles O17: the transactions with checks are ISSUE (`step_issue_raises`), the three locked writes
(`step_write_raises`) and WRITE_RANGE (`step_writeRange`). -/
theorem transactionRaisesItsFirstFailingCheck : Obligations.TransactionRaisesItsFirstFailingCheck := by
  intro s t rest code info hs hclear hfail
  cases t with
  | issue w => exact step_issue_raises hs hclear hfail
  | writeSpec i off mask =>
    exact step_write_raises hs hclear (.inl ⟨i, off, mask, rfl⟩)
      (fun hopen hbad => (step_writeSpec hs hclear hopen).trans (if_pos hbad)) hfail
  | writeZones z dz mz =>
    exact step_write_raises hs hclear (.inr (.inl ⟨z, dz, mz, rfl⟩))
      (fun hopen hbad => (step_writeZones hs hclear hopen).trans (if_pos hbad)) hfail
  | writeAxis a lo hi cond z =>
    exact step_write_raises hs hclear (.inr (.inr ⟨a, lo, hi, cond, z, rfl⟩))
      (fun hopen hbad => (step_writeAxis hs hclear hopen).trans (if_pos hbad)) hfail
  | writeRange r min max =>
    obtain ⟨hbad, rfl, rfl⟩ := firstFailing_single.1 hfail
    exact (step_writeRange hs hclear).trans (if_pos hbad)
  | lock => nomatch hfail
  | reset => nomatch hfail
  | writeArg _ => nomatch hfail
  | loadReport _ => nomatch hfail
  | readResult => nomatch hfail
  | readStatus => nomatch hfail

end Sys2Proof.Claims
end

section
/-! SUPPORT. The family of reset, boot and hazards (70_reset_and_hazards.md): what the commands that read the report depend
on (R276), what a reset block answers (R271), and the boot for the reference device (R272). -/

namespace Sys2Proof.Claims

open Sys2Proof.Machine

/-! What the commands that read the report depend on (R276). -/

section View

variable {s t : State}

/-- The part of a state that `SameDeviceView` compares, with everything else as after reset. -/
def deviceView (s : State) : State :=
  { State.resetWith s.cfg with
    spec := s.spec, zones := s.zones, ranges := s.ranges, axes := s.axes, rpt := s.rpt, rptV := s.rptV }

theorem deviceView_eq (h : SameDeviceView s t) : deviceView s = deviceView t := by
  obtain ⟨hcfg, hspec, hzones, hranges, haxes, hrpt, hrptV⟩ := h
  simp only [deviceView, hcfg, hspec, hzones, hranges, haxes, hrpt, hrptV]

/-- The commands that read the report. -/
abbrev ReadsReport (i : Instr) : Prop :=
  (∃ n, i = .getb n) ∨ (∃ n, i = .getu8 n) ∨ (∃ lo hi, i = .gets16 lo hi) ∨ ∃ a rt, i = .axis a rt

/-- Their checks and their value are a function of the view. -/
theorem exec_of_deviceView {i : Instr} (hi : ReadsReport i) :
    ∃ x : State → Except Stop Word, ∀ s, exec i s = finish (encode i) s (x (deviceView s)) := by
  rcases hi with ⟨n, rfl⟩ | ⟨n, rfl⟩ | ⟨lo, hi, rfl⟩ | ⟨a, rt, rfl⟩
  · exact ⟨fun w => maskedByte w n >>= fun m => .ok (if m != 0 then 1 else 0), exec_getb n⟩
  · exact ⟨fun w => maskedByte w n >>= fun m => .ok (m.zeroExtend 32), exec_getu8 n⟩
  · exact ⟨fun w => checkedShort w lo hi >>= fun v => .ok (toWord v), exec_gets16 lo hi⟩
  · exact ⟨fun w => checkedAxis w a rt >>= fun x => .ok (axisWord w x.1 x.2.1 x.2.2), exec_axis a rt⟩

/-- Settles O35: a command that completes has a value (`finish_clear`), and the value is a function of the view
(`exec_of_deviceView`), which the two states share. -/
theorem reportCommandsSeeOnlyConfigurationAndReport : Obligations.ReportCommandsSeeOnlyConfigurationAndReport := by
  intro i s t v hi hview hs _ hexec
  obtain ⟨x, hx⟩ := exec_of_deviceView hi
  rw [hx s] at hexec
  obtain ⟨w, hw, hres⟩ := finish_clear hexec hs hs
  obtain rfl : v = w := by simpa using congrArg State.res hres
  rw [hx t, ← deviceView_eq hview, hw, finish_ok]
  rfl

end View

/-! Runs. -/

theorem run_succ_of_next {M : Host.Core} {k : Nat} {s u : M.State} (h : M.step s = .next u) :
    M.run (k + 1) s = M.run k u := by
  rw [Host.Core.run, h]

theorem run_succ {k : Nat} {s u : State} (h : step s = .next u) : core.run (k + 1) s = core.run k u :=
  run_succ_of_next (M := core) (s := s) (u := u) h

theorem run_one {s u : State} (h : step s = .next u) : core.run 1 s = .next u := run_succ h

/-! Right after reset (R271): no table but `RANGE` holds an entry, and of `RANGE` only the native range. -/

section AfterReset

variable {s : State}

theorem rangeEntry_native (hlegal : s.cfg.Legal) : rangeEntry s 0 = some nativeRange := by
  obtain ⟨-, -, -, ⟨hnrange, -⟩, -⟩ := hlegal
  rw [rangeEntry, if_pos (by omega), if_pos rfl]

theorem exec_xlat_native_arg {v : Word} (hlegal : s.cfg.Legal) (harg : s.arg = some v) :
    exec (.xlat .arg 0 0) s = .next { s with res := some v } :=
  xlatToItsOwnRangeIsTheIdentity .arg 0 0 s nativeRange v (rangeEntry_native hlegal) (rangeEntry_native hlegal) harg
    (by decide)

end AfterReset

/-- The argument goes through WRITE_ARG to `ARG`, and through XLAT to `RES`. -/
theorem run_writeArg_xlat_native {p : Config} (hlegal : p.Legal) (v : Word) (rest : List Txn) :
    core.run 2 { State.resetWith p with script := .writeArg v :: .issue 0x78000000#32 :: rest } =
      .next { State.resetWith p with arg := some v, res := some v, script := rest } := by
  have hwrite := writeArgLoadsTheOperandRegister
    { State.resetWith p with script := .writeArg v :: .issue 0x78000000#32 :: rest } v _ rfl
  have hdecode : decode 0x78000000#32 = .ok (.xlat .arg 0 0) := by decide
  have hissue := stepRunsTheDecodedCommand
    { State.resetWith p with arg := some v, script := .issue 0x78000000#32 :: rest } _ rest _ rfl rfl hdecode
  rw [exec_xlat_native_arg hlegal rfl] at hissue
  exact (run_succ hwrite).trans (run_one hissue)

/-- Settles O47: XLAT from the native range to itself gives `ARG` (`exec_xlat_native_arg`), and each of the other commands
fails a check of its row (`exec_raises_firstFailing`), since reset leaves no entry but `RANGE[0]` (`resetWith_atReset`) and
no `RES`. -/
theorem rightAfterReset : Obligations.RightAfterReset := by
  intro p hlegal
  obtain ⟨hspec, hzones, -, -, haxes, -⟩ := resetWith_atReset p
  refine ⟨run_writeArg_xlat_native hlegal, ?_, ?_, ?_, ?_⟩
  · rintro s v rfl
    exact exec_xlat_native_arg hlegal rfl
  · rintro s n lo hi a rt rfl
    refine ⟨?_, ?_, ?_, ?_⟩ <;> apply exec_raises_firstFailing rfl
    · simp [commandChecks, hspec, firstFailing]
    · simp [commandChecks, hspec, firstFailing]
    · simp [commandChecks, hspec, firstFailing]
    · simp [commandChecks, haxes, firstFailing]
  · rintro s src z rs rfl
    refine ⟨?_, ?_, ?_⟩ <;> apply exec_raises_firstFailing rfl <;> simp [commandChecks, hzones, firstFailing]
  · rintro s rfl
    apply exec_raises_firstFailing rfl
    have hnone : valueReg (State.resetWith p) .res = none := rfl
    simp [commandChecks, rangeEntry_native (s := State.resetWith p) hlegal, hnone, firstFailing, srcBit]

/-! The boot (R272). -/

section Boot

variable {α : Type}

/-- A write past the end of a table appends to it. -/
theorem tablePut_of_forall_lt {xs : List (Nat × α)} {i : Nat} (h : ∀ e ∈ xs, e.1 < i) (a : α) :
    tablePut xs i a = xs ++ [(i, a)] := by
  induction xs with
  | nil => rfl
  | cons p rest ih =>
    have hp : p.1 < i := h p (by simp)
    have hrest := ih fun e he => h e (by simp [he])
    rw [tablePut, if_neg (by omega), if_neg (by omega), hrest, List.cons_append]

/-- A table's writes in the order of its indexes: where each of `write e` puts `e` into the table of the state
`place table script`, the writes of `todo` complete the table that holds `done`. -/
theorem run_writes {place : List (Nat × α) → List Txn → State} {write : Nat × α → Txn} {todo : List (Nat × α)}
    (hstep : ∀ e ∈ todo, ∀ table rest, step (place table (write e :: rest)) = .next (place (tablePut table e.1 e.2) rest))
    {done : List (Nat × α)} (hform : Rising (done ++ todo)) (rest : List Txn) (k : Nat) :
    core.run (todo.length + k) (place done (todo.map write ++ rest)) = core.run k (place (done ++ todo) rest) := by
  induction todo generalizing done with
  | nil => simp
  | cons e todo ih =>
    have hlast : ∀ d ∈ done, d.1 < e.1 := by
      intro d hd
      rw [Rising, List.map_append] at hform
      obtain ⟨-, -, hbelow⟩ := List.pairwise_append.1 hform
      exact hbelow _ (List.mem_map_of_mem hd) _ (by simp)
    have hwrite := hstep e (by simp) done (todo.map write ++ rest)
    rw [tablePut_of_forall_lt hlast e.2] at hwrite
    have hrest := ih (fun d hd => hstep d (by simp [hd])) (done := done ++ [e]) (by simpa using hform)
    rw [List.append_assoc, List.singleton_append] at hrest
    rw [List.length_cons, Nat.succ_add]
    exact (run_succ hwrite).trans hrest

end Boot

/-- A block in its boot: the three configuration tables and the rest of the script, all else as after reset. -/
def booting (p : Config) (l : Layout) (script : List Txn) : State :=
  { State.resetWith p with spec := l.spec, zones := l.zones, axes := l.axes, script := script }

section BootSteps

variable {p : Config} {l : Layout} {rest : List Txn}

theorem step_boot_spec {e : Nat × ButtonSpec} (hbyte : p.nspec ≤ 256) (he : e.1 < p.nspec) :
    step (booting p l (.writeSpec (BitVec.ofNat 8 e.1) e.2.off e.2.mask :: rest)) =
      .next (booting p { l with spec := tablePut l.spec e.1 e.2 } rest) := by
  have hindex : (BitVec.ofNat 8 e.1).toNat = e.1 := Nat.mod_eq_of_lt (by omega)
  rw [step_writeSpec rfl rfl rfl, hindex]
  exact if_neg he.not_ge

theorem step_boot_zones {e : Nat × ConditioningZones} (hnibble : p.nzones ≤ 16) (he : e.1 < p.nzones) :
    step (booting p l (.writeZones (BitVec.ofNat 4 e.1) e.2.dz e.2.mz :: rest)) =
      .next (booting p { l with zones := tablePut l.zones e.1 e.2 } rest) := by
  have hindex : (BitVec.ofNat 4 e.1).toNat = e.1 := Nat.mod_eq_of_lt (by omega)
  rw [step_writeZones rfl rfl rfl, hindex]
  exact if_neg he.not_ge

theorem step_boot_axis {e : Nat × AxisDesc} (he : e.1 < naxis) :
    step (booting p l (.writeAxis (BitVec.ofNat 4 e.1) e.2.lo e.2.hi e.2.cond e.2.z :: rest)) =
      .next (booting p { l with axes := tablePut l.axes e.1 e.2 } rest) := by
  have hindex : (BitVec.ofNat 4 e.1).toNat = e.1 := Nat.mod_eq_of_lt (he.trans (by decide))
  rw [step_writeAxis rfl rfl rfl, hindex]
  exact if_neg he.not_ge

end BootSteps

theorem bootScript_length (l : Layout) :
    (bootScript l).length = l.spec.length + (l.zones.length + (l.axes.length + 1)) := by
  simp [bootScript]

theorem bootScript_append (l : Layout) (rest : List Txn) : bootScript l ++ rest =
    l.spec.map (fun e => .writeSpec (BitVec.ofNat 8 e.1) e.2.off e.2.mask) ++
      (l.zones.map (fun e => .writeZones (BitVec.ofNat 4 e.1) e.2.dz e.2.mz) ++
        (l.axes.map (fun e => .writeAxis (BitVec.ofNat 4 e.1) e.2.lo e.2.hi e.2.cond e.2.z) ++ .lock :: rest)) := by
  simp [bootScript]

/-- Settles O50: from empty tables, the writes of each table leave the layout's own (`run_writes`), and LOCK ends the
script. -/
theorem referenceBootLoadsTheLayoutAndLocks : Obligations.ReferenceBootLoadsTheLayoutAndLocks := by
  intro p l rest hlegal hlayout
  obtain ⟨-, ⟨-, hbyte⟩, ⟨-, hnibble⟩, -, hlayouts⟩ := hlegal
  obtain ⟨⟨hspecForm, hspecBound⟩, ⟨hzonesForm, hzonesBound⟩, haxesForm, haxesBound⟩ := hlayouts l (by simp [hlayout])
  have hspec := run_writes (place := fun table => booting p ⟨table, [], []⟩)
    (fun e he _ _ => step_boot_spec hbyte (hspecBound e he)) (done := []) hspecForm
  have hzones := run_writes (place := fun table => booting p ⟨l.spec, table, []⟩)
    (fun e he _ _ => step_boot_zones hnibble (hzonesBound e he)) (done := []) hzonesForm
  have haxes := run_writes (place := fun table => booting p ⟨l.spec, l.zones, table⟩)
    (fun e he _ _ => step_boot_axis (haxesBound e he)) (done := []) haxesForm
  obtain ⟨hlock, -, -⟩ := lockFreezesTheConfiguration
  have hlocked := run_one (hlock (booting p l (.lock :: rest)) rest rfl rfl)
  have hboot : referenceBoot p = bootScript l := by rw [referenceBoot, hlayout]
  rw [hboot, bootScript_length, bootScript_append]
  exact (hspec _ _).trans ((hzones _ _).trans ((haxes _ _).trans hlocked))

end Sys2Proof.Claims
end

section
/-! SUPPORT. What RESET leaves to the host (44_host_interface.md R206; log entries 1 and 3). -/

namespace Sys2Proof.Claims

open Sys2Proof.Machine

/-- RESET has no guard: its step answers `resetBlock`, in a block with a fault too (44_host_interface.md R206). -/
theorem step_reset {s : State} {rest : List Txn} (hs : s.script = .reset :: rest) :
    step s = .next (resetBlock (setScript s rest)) :=
  step_cons hs

/-- Settles O44: the step answers `resetBlock` (`step_reset`), which keeps the parameters, the rest of the script and the
replies. -/
theorem resetKeepsTheParametersAndTheHostsSide : Obligations.ResetKeepsTheParametersAndTheHostsSide := by
  intro s u rest hs hstep
  obtain rfl : resetBlock (setScript s rest) = u := Host.Outcome.next.inj ((step_reset hs).symm.trans hstep)
  exact ⟨resetBlock_cfg _, resetBlock_script _, resetBlock_replies _⟩

end Sys2Proof.Claims
end
